-- ==== Sys2Proof/Word.lean ====
section
/-! DEFINITION. The byte carried by a station port and the 16-bit word of the tick counter and of two-byte fields. -/

namespace Sys2Proof

/-- One byte as a station port carries it; bit 0 is the least significant bit (chapter 11). -/
abbrev Byte := BitVec 8

/-- A 16-bit count that wraps (the tick counter, R122) or a two-byte field of a request (R164). -/
abbrev Word := BitVec 16

end Sys2Proof
end

