-- ==== Sys2Proof/Syntax.lean ====
section
/-! DEFINITION. The commands of the LX32: one constructor of `Instr` for each row of the table of operations and
events. A request row is the request of one station, a port row is one bus cycle at one port, and an event row is
one event inside the part or on one of its pins. -/

namespace Sys2Proof

/-- Station 0 to 3, each on the port of the same number; station 0 is the supervisor (R103, R104). -/
abbrev Station := Fin 4

/-- Channel CH0 to CH31 (R71). -/
abbrev ChannelNo := Fin 32

/-- The level of an input pin. -/
inductive Level where
  | low
  | high
deriving DecidableEq, Repr

/-- An edge on the TICK pin (R118). -/
inductive Edge where
  | rising
  | falling
deriving DecidableEq, Repr

/-- The twenty command bytes that name a request (R167). -/
inductive RequestCode where
  | readStatus
  | queryChannel
  | queryLease
  | listLeases
  | attach
  | detach
  | setMask
  | poll
  | claim
  | renew
  | renewAll
  | drive
  | release
  | configChannel
  | configStation
  | configClock
  | configSupply
  | clearFault
  | revoke
  | restart
deriving DecidableEq, Repr

/-- One entry of a DRIVE request, its three bytes as the request carries them (R84, R167). -/
structure DriveEntry where
  channel : Byte
  mode : Byte
  value : Byte
deriving DecidableEq, Repr

/-- What begins or clears a condition of a device reset (R134): the supply coming to a voltage, in millivolts,
or the RST# pin. -/
inductive ResetCondition where
  | supply (millivolts : Nat)
  | pin
deriving DecidableEq, Repr

/-- The commands: every row of spec/opcode_table.json. The operands of a request are its station and the fields
of its layout (R167), each as the byte or word the request carries, so that out-of-range values can be refused by
the request's own checks. -/
inductive Instr where
  | readStatus (st : Station)
  | queryChannel (st : Station) (channel : Byte)
  | queryLease (st : Station) (handle : Byte)
  | listLeases (st : Station) (station : Byte)
  | attach (st : Station)
  | detach (st : Station)
  | setMask (st : Station) (mask : Byte)
  | poll (st : Station)
  | claim (st : Station) (options : Byte) (term : Word) (warnMargin : Byte) (count : Byte) (channels : List Byte)
  | renew (st : Station) (handle : Byte) (newTerm : Word)
  | renewAll (st : Station)
  | drive (st : Station) (handle : Byte) (count : Byte) (entries : List DriveEntry)
  | release (st : Station) (handle : Byte)
  | configChannel (st : Station) (channel : Byte) (config : Byte) (minClass : Byte)
  | configStation (st : Station) (station : Byte) (cls : Byte) (quota : Byte)
  | configClock (st : Station) (sourceEdge : Byte) (rate : Byte) (silence : Byte) (frame : Byte) (settle : Byte)
  | configSupply (st : Station) (index : Byte)
  | clearFault (st : Station) (channel : Byte)
  | revoke (st : Station) (handle : Byte)
  | restart (st : Station)
  | commandByte (port : Station) (code : RequestCode)
  | dataByte (port : Station) (byte : Byte)
  | unknownCommandByte (port : Station) (byte : Byte)
  | abort (port : Station)
  | replay (port : Station)
  | statusRead (port : Station)
  | dataRead (port : Station)
  | leaseTick
  | leaseExpiry
  | pulseEnd (channel : ChannelNo)
  | frameStart
  | senseChange (channel : ChannelNo) (level : Level)
  | settleEnd (channel : ChannelNo)
  | senseFault (channel : ChannelNo)
  | qualifyingEdge (edge : Edge)
  | silenceExpiry
  | supplyBelowVt (millivolts : Nat)
  | supplyAboveVt (millivolts : Nat)
  | supplyLowEvent
  | supplyRise (millivolts : Nat)
  | recoveryExpiry
  | deviceReset (condition : ResetCondition)
  | resetEnd
  | lastResetConditionClears (condition : ResetCondition)
deriving DecidableEq, Repr

end Sys2Proof
end

