-- ==== Sys2Proof/Decode.lean ====
section
/-! DEFINITION. The words of the table (none) and the request layouts: the bytes of each request as R167 lays
them out, and the request that a complete request buffer spells. -/

namespace Sys2Proof

/-- The command that a table word spells. The table gives no row any bits, so no word spells a command. DESIGN CHOICE (log entry
18). -/
def decodeTableWord (_nbits _w : Nat) : Option Instr := none

/-- The command byte of each request (R167). -/
def RequestCode.toByte : RequestCode → Byte
  | .readStatus => 0x01#8
  | .queryChannel => 0x02#8
  | .queryLease => 0x03#8
  | .listLeases => 0x04#8
  | .attach => 0x10#8
  | .detach => 0x11#8
  | .setMask => 0x12#8
  | .poll => 0x13#8
  | .claim => 0x20#8
  | .renew => 0x21#8
  | .renewAll => 0x22#8
  | .drive => 0x23#8
  | .release => 0x24#8
  | .configChannel => 0x30#8
  | .configStation => 0x31#8
  | .configClock => 0x32#8
  | .configSupply => 0x33#8
  | .clearFault => 0x34#8
  | .revoke => 0x35#8
  | .restart => 0x36#8

/-- The request a command byte names, if it names one (R145, R148, R167). -/
def RequestCode.ofByte? (b : Byte) : Option RequestCode :=
  if b = 0x01#8 then some .readStatus
  else if b = 0x02#8 then some .queryChannel
  else if b = 0x03#8 then some .queryLease
  else if b = 0x04#8 then some .listLeases
  else if b = 0x10#8 then some .attach
  else if b = 0x11#8 then some .detach
  else if b = 0x12#8 then some .setMask
  else if b = 0x13#8 then some .poll
  else if b = 0x20#8 then some .claim
  else if b = 0x21#8 then some .renew
  else if b = 0x22#8 then some .renewAll
  else if b = 0x23#8 then some .drive
  else if b = 0x24#8 then some .release
  else if b = 0x30#8 then some .configChannel
  else if b = 0x31#8 then some .configStation
  else if b = 0x32#8 then some .configClock
  else if b = 0x33#8 then some .configSupply
  else if b = 0x34#8 then some .clearFault
  else if b = 0x35#8 then some .revoke
  else if b = 0x36#8 then some .restart
  else none

/-- The control byte ABORT (R151, R167). -/
def abortByte : Byte := 0xF0#8

/-- The control byte REPLAY (R150, R167). -/
def replayByte : Byte := 0xF1#8

/-- The number of items a count byte announces: 1 to 8, or none for a count outside that range (R146). -/
def announced (count : Byte) : Nat :=
  if 1 ≤ count.toNat ∧ count.toNat ≤ 8 then count.toNat else 0

/-- The two bytes of a 16-bit field, most significant byte first (R164). -/
def wordBytes (w : Word) : List Byte := [w.extractLsb' 8 8, w.extractLsb' 0 8]

/-- The three bytes of a DRIVE entry (R167). -/
def entryBytes (e : DriveEntry) : List Byte := [e.channel, e.mode, e.value]

/-- The station and the bytes of a request, the command byte first (R167); none for a command that is not a
request. -/
def Instr.request? : Instr → Option (Station × List Byte)
  | .readStatus st => some (st, [RequestCode.readStatus.toByte])
  | .queryChannel st channel => some (st, [RequestCode.queryChannel.toByte, channel])
  | .queryLease st handle => some (st, [RequestCode.queryLease.toByte, handle])
  | .listLeases st station => some (st, [RequestCode.listLeases.toByte, station])
  | .attach st => some (st, [RequestCode.attach.toByte])
  | .detach st => some (st, [RequestCode.detach.toByte])
  | .setMask st mask => some (st, [RequestCode.setMask.toByte, mask])
  | .poll st => some (st, [RequestCode.poll.toByte])
  | .claim st options term warnMargin count channels =>
    some (st, RequestCode.claim.toByte :: options :: wordBytes term ++ warnMargin :: count :: channels)
  | .renew st handle newTerm => some (st, RequestCode.renew.toByte :: handle :: wordBytes newTerm)
  | .renewAll st => some (st, [RequestCode.renewAll.toByte])
  | .drive st handle count entries =>
    some (st, RequestCode.drive.toByte :: handle :: count :: entries.flatMap entryBytes)
  | .release st handle => some (st, [RequestCode.release.toByte, handle])
  | .configChannel st channel config minClass =>
    some (st, [RequestCode.configChannel.toByte, channel, config, minClass])
  | .configStation st station cls quota => some (st, [RequestCode.configStation.toByte, station, cls, quota])
  | .configClock st sourceEdge rate silence frame settle =>
    some (st, [RequestCode.configClock.toByte, sourceEdge, rate, silence, frame, settle])
  | .configSupply st index => some (st, [RequestCode.configSupply.toByte, index])
  | .clearFault st channel => some (st, [RequestCode.clearFault.toByte, channel])
  | .revoke st handle => some (st, [RequestCode.revoke.toByte, handle])
  | .restart st => some (st, [RequestCode.restart.toByte])
  | .commandByte _ _ => none
  | .dataByte _ _ => none
  | .unknownCommandByte _ _ => none
  | .abort _ => none
  | .replay _ => none
  | .statusRead _ => none
  | .dataRead _ => none
  | .leaseTick => none
  | .leaseExpiry => none
  | .pulseEnd _ => none
  | .frameStart => none
  | .senseChange _ _ => none
  | .settleEnd _ => none
  | .senseFault _ => none
  | .qualifyingEdge _ => none
  | .silenceExpiry => none
  | .supplyBelowVt _ => none
  | .supplyAboveVt _ => none
  | .supplyLowEvent => none
  | .supplyRise _ => none
  | .recoveryExpiry => none
  | .deviceReset _ => none
  | .resetEnd => none
  | .lastResetConditionClears _ => none

/-- The bytes of a request, the command byte first; empty for a command that is not a request. -/
def Instr.requestBytes (i : Instr) : List Byte :=
  match i.request? with
  | some (_, bytes) => bytes
  | none => []

/-- The entries of a DRIVE request, three bytes each (R167); none where the bytes do not come in threes. -/
def entriesOf? : List Byte → Option (List DriveEntry)
  | [] => some []
  | channel :: mode :: value :: rest =>
    match entriesOf? rest with
    | some es => some (⟨channel, mode, value⟩ :: es)
    | none => none
  | _ => none

/-- The request of station `st` that a complete request buffer spells: the engine reads every byte as the layout
of R167 places it (R164). -/
def decodeRequest (st : Station) : List Byte → Option Instr
  | [] => none
  | command :: fields =>
    match RequestCode.ofByte? command, fields with
    | some .readStatus, [] => some (.readStatus st)
    | some .queryChannel, [channel] => some (.queryChannel st channel)
    | some .queryLease, [handle] => some (.queryLease st handle)
    | some .listLeases, [station] => some (.listLeases st station)
    | some .attach, [] => some (.attach st)
    | some .detach, [] => some (.detach st)
    | some .setMask, [mask] => some (.setMask st mask)
    | some .poll, [] => some (.poll st)
    | some .claim, options :: termHi :: termLo :: warnMargin :: count :: channels =>
      if channels.length = announced count then
        some (.claim st options (termHi ++ termLo) warnMargin count channels)
      else none
    | some .renew, [handle, termHi, termLo] => some (.renew st handle (termHi ++ termLo))
    | some .renewAll, [] => some (.renewAll st)
    | some .drive, handle :: count :: rest =>
      match entriesOf? rest with
      | some entries => if entries.length = announced count then some (.drive st handle count entries) else none
      | none => none
    | some .release, [handle] => some (.release st handle)
    | some .configChannel, [channel, config, minClass] => some (.configChannel st channel config minClass)
    | some .configStation, [station, cls, quota] => some (.configStation st station cls quota)
    | some .configClock, [sourceEdge, rate, silence, frame, settle] =>
      some (.configClock st sourceEdge rate silence frame settle)
    | some .configSupply, [index] => some (.configSupply st index)
    | some .clearFault, [channel] => some (.clearFault st channel)
    | some .revoke, [handle] => some (.revoke st handle)
    | some .restart, [] => some (.restart st)
    | _, _ => none

end Sys2Proof
end

