-- ==== Sys2Proof/Config.lean ====
section
/-! DEFINITION. What the manual leaves open: one free value and the input levels at which `State.reset` stands. -/

namespace Sys2Proof

/-- FREE VALUE (log entry 3). Which of several timed events that come due in the same microsecond is taken
next: the manual says of such meetings that either order is possible and that none is preferred (R66 to R69,
R100, R132, R142). The argument is the model's own counter of such choices. No body: nothing can be proved of
its values. -/
opaque Config.dueOrder : Nat → Nat

/-- DESIGN CHOICE (log entry 1). The supply, in millivolts, at `State.reset`: the nominal 3.30 V of R170. -/
def Config.resetSupply : Nat := 3300

end Sys2Proof
end

