-- ==== Sys2Proof/Machine/State.lean ====
section
/-! DEFINITION. The state of the LX32, record by record as the chapters of the manual give it, the stop reasons,
and the state right after a device reset. -/

namespace Sys2Proof.Machine

open Sys2Proof

/-! ## The lease table (chapter 1) -/

/-- A slot of the lease table, 0 to 23 (R1). -/
abbrev SlotNo := Fin 24

/-- A slot's generation, 0 to 7; adding one to 7 gives 0 (R1, R6). -/
abbrev Generation := Fin 8

/-- The name of a lease: its slot and the generation the slot had at its creation (R5). -/
structure Handle where
  slot : SlotNo
  gen : Generation
deriving DecidableEq, Repr

/-- The six causes of a lapse (R64). -/
inductive LapseCause where
  | expired
  | preempted
  | revoked
  | fault
  | supply
  | clock
deriving DecidableEq, Repr

/-- The state of a lease; the lapse cause is present only in LAPSED (R2). -/
inductive LeaseState where
  | pending
  | held
  | lapsed (cause : LapseCause)
deriving DecidableEq, Repr

/-- The notices of a lease slot, or the lease kinds of a mask (R17). -/
structure LeaseNotices where
  granted : Bool
  warning : Bool
  lapsed : Bool
deriving DecidableEq, Repr

/-- A lease record (R2). Its handle is read from the slot that holds it (R5), and its per-channel drive records
are those of the channel table (R71), where they are stored once. -/
structure Lease where
  holder : Station
  state : LeaseState
  channels : List ChannelNo
  term : Nat
  remaining : Nat
  warnMargin : Nat
  warned : Bool
  renewCount : Nat
  grantTick : Word
  renewTick : Word
  notices : LeaseNotices
deriving DecidableEq, Repr

/-- A slot of the lease table: its generation, and the lease it holds, none while it is FREE (R1). -/
structure Slot where
  gen : Generation
  lease : Option Lease
deriving DecidableEq, Repr

/-! ## The channel table and the sense checkers (chapters 4 and 5) -/

/-- A steady drive: the fallbacks, and the modes LOW, HIGH and OFF of a drive record (R71). -/
inductive Steady where
  | low
  | high
  | off
deriving DecidableEq, Repr

/-- A drive record (R71): a steady drive, PWM with its duty, or a pulse of a level with its length. -/
inductive Drive where
  | steady (value : Steady)
  | pwm (duty : Nat)
  | pulse (level : Level) (length : Nat)
deriving DecidableEq, Repr

/-- What a channel record holds only in state HELD (R71): the holding lease, the drive record, the pending PWM
change and the pulse remaining. -/
structure HeldUse where
  lease : Handle
  drive : Drive
  pendingPwm : Option Nat
  pulse : Nat
deriving DecidableEq, Repr

/-- The state of a channel (R72). -/
inductive ChannelUse where
  | idle
  | held (use : HeldUse)
  | faulted
deriving DecidableEq, Repr

/-- The phases of a sense checker (R91). -/
inductive Phase where
  | inactive
  | suspended
  | settling
  | watching
  | mismatch
  | stopped
deriving DecidableEq, Repr

/-- A channel record (R71) with its sense checker (R91). A timer holds the microseconds it has run, or none while
it does not run. -/
structure Channel where
  use : ChannelUse
  fallback : Steady
  senseCheck : Bool
  minClass : Fin 4
  senseLevel : Level
  phase : Phase
  settleTimer : Option Nat
  mismatchTimer : Option Nat
deriving DecidableEq, Repr

/-! ## The station table (chapter 6) -/

/-- The supervisor's device notices, or the device kinds of a mask (R103). -/
structure DeviceNotices where
  fault : Bool
  hold : Bool
  clear : Bool
deriving DecidableEq, Repr

/-- A notice mask (R103). -/
structure NoticeMask where
  lease : LeaseNotices
  device : DeviceNotices
deriving DecidableEq, Repr

/-- A station record (R103); the device notices of station 0 stand beside the table. -/
structure StationRec where
  attached : Bool
  cls : Fin 4
  quota : Nat
  mask : NoticeMask
deriving DecidableEq, Repr

/-! ## The lease clock (chapter 7) -/

/-- Where lease ticks come from (R118). -/
inductive ClockSource where
  | internal
  | external
deriving DecidableEq, Repr

/-- The state of the lease clock (R118). -/
inductive ClockState where
  | running
  | lost
deriving DecidableEq, Repr

/-- The lease clock (R118). `prescale` counts microseconds with source INTERNAL and qualifying edges with source
EXTERNAL; `silenceTimer` holds the microseconds since its last restart, none while it is stopped. -/
structure LeaseClock where
  source : ClockSource
  periodIndex : Fin 8
  edge : Edge
  divisorIndex : Fin 3
  silenceLimit : Nat
  prescale : Nat
  silenceTimer : Option Nat
  state : ClockState
  tickCounter : Word
  frameIndex : Fin 4
  settleMs : Nat
deriving DecidableEq, Repr

/-! ## Supply, hold-down and resets (chapter 8) -/

/-- The supply states (R129). -/
inductive SupplyState where
  | normal
  | low
  | recovering
deriving DecidableEq, Repr

/-- The supply monitor (R129) with its supply-low filter (R130). A timer holds the microseconds it has run, or none
while it does not run. -/
structure SupplyMonitor where
  state : SupplyState
  threshold : Fin 4
  recoveryTimer : Option Nat
  filter : Option Nat
deriving DecidableEq, Repr

/-- The hold-down cause set (R138). -/
structure HoldCauses where
  supply : Bool
  clock : Bool
deriving DecidableEq, Repr

/-- The last reset cause (R135). -/
inductive ResetCause where
  | power
  | brownout
  | pin
deriving DecidableEq, Repr

/-- The device reset (R134): whether one lasts, whether its supply condition lasts, the supply conditions met during
it (R135), and the microseconds since the last condition cleared, none while one lasts. -/
structure ResetControl where
  active : Bool
  supplyHeld : Bool
  metPower : Bool
  metBrownout : Bool
  release : Option Nat
deriving DecidableEq, Repr

/-! ## The station ports (chapter 9) -/

/-- The port states (R143). -/
inductive PortState where
  | idle
  | assembling
  | queued
  | reply
deriving DecidableEq, Repr

/-- The port errors (R153). -/
inductive PortError where
  | none
  | truncated
  | stray
  | overrun
  | empty
  | withdrawn
deriving DecidableEq, Repr

/-- A station port (R143). DESIGN CHOICE (log entry 12): `dataBus` is the byte the port drove on its data bus at the last read cycle, none where it
drove nothing. -/
structure Port where
  state : PortState
  request : List Byte
  expected : Option Nat
  reply : List Byte
  readPos : Nat
  error : PortError
  dataBus : Option Byte
deriving DecidableEq, Repr

/-! ## The whole part -/

/-- The state of the LX32. `vdd` is the supply in millivolts; the sense inputs stand in the channel records.
`choices` is the model's own counter of the choices taken from `Config.dueOrder` (log entry 3), and `pending` the
commands that wait, first in, first out. -/
structure State where
  slots : Vector Slot 24
  waitList : List Handle
  channels : Vector Channel 32
  stations : Vector StationRec 4
  deviceNotices : DeviceNotices
  clock : LeaseClock
  frameTime : Nat
  supply : SupplyMonitor
  causes : HoldCauses
  resetCtl : ResetControl
  lastReset : ResetCause
  ports : Vector Port 4
  pointer : Station
  restartCount : Nat
  vdd : Nat
  rstPin : Level
  tickPin : Level
  choices : Nat
  pending : List Instr
deriving DecidableEq, Repr

/-- The faults of the LX32: none. The manual gives every command an effect in every state, so no command stops the
part. Nothing raises one. -/
inductive Fault where
deriving DecidableEq, Repr

/-- The refusals. -/
inductive Refusal where
  /-- Raised by `exec` for a command that has no meaning yet, with its mnemonic: safe. No arm raises it. -/
  | notModelled (mnemonic : String)
deriving DecidableEq, Repr

/-! ## The values of a device reset -/

/-- No lease notice. -/
def LeaseNotices.empty : LeaseNotices := ⟨false, false, false⟩

/-- No device notice. -/
def DeviceNotices.empty : DeviceNotices := ⟨false, false, false⟩

/-- The empty mask. -/
def NoticeMask.empty : NoticeMask := ⟨.empty, .empty⟩

/-- A slot after a device reset: FREE at generation 0 (R22). -/
def Slot.afterReset : Slot := ⟨0, none⟩

/-- A channel after a device reset (R89, R102); its sense input stands as it does on its pin. -/
def Channel.afterReset (sense : Level) : Channel where
  use := .idle
  fallback := .low
  senseCheck := false
  minClass := 0
  senseLevel := sense
  phase := .inactive
  settleTimer := none
  mismatchTimer := none

/-- A station after a device reset (R116). -/
def StationRec.afterReset : StationRec := ⟨false, 0, 6, .empty⟩

/-- The lease clock after a device reset (R118). -/
def LeaseClock.afterReset : LeaseClock where
  source := .internal
  periodIndex := 3
  edge := .rising
  divisorIndex := 0
  silenceLimit := 0
  prescale := 0
  silenceTimer := none
  state := .running
  tickCounter := 0
  frameIndex := 2
  settleMs := 5

/-- The device-reset controls while no device reset lasts. -/
def ResetControl.inactive : ResetControl := ⟨false, false, false, false, none⟩

/-- A port after a device reset (R143). -/
def Port.afterReset : Port := ⟨.idle, [], none, [], 0, .none, none⟩

/-- The machine right after a power-on device reset with the supply at its nominal 3.30 V (R22, R47, R89, R102, R116,
R118, R135, R136, R143, R156, R163): the supply monitor is RECOVERING and its SUPPLY cause holds the part down. The
levels of the input pins and the supply are the model's. DESIGN CHOICE (log entry 1). -/
def State.reset : State where
  slots := Vector.replicate 24 Slot.afterReset
  waitList := []
  channels := Vector.replicate 32 (Channel.afterReset .low)
  stations := Vector.replicate 4 StationRec.afterReset
  deviceNotices := .empty
  clock := .afterReset
  frameTime := 0
  supply := ⟨.recovering, 0, some 0, none⟩
  causes := ⟨true, false⟩
  resetCtl := .inactive
  lastReset := .power
  ports := Vector.replicate 4 Port.afterReset
  pointer := 3
  restartCount := 0
  vdd := Config.resetSupply
  rstPin := .high
  tickPin := .low
  choices := 0
  pending := []

/-! ## Access to the records by number -/

/-- Slot `i` of the lease table. -/
def State.slot (s : State) (i : SlotNo) : Slot := s.slots[i]

/-- Channel `n` of the channel table. -/
def State.channel (s : State) (n : ChannelNo) : Channel := s.channels[n]

/-- The record of station `st`. -/
def State.station (s : State) (st : Station) : StationRec := s.stations[st]

/-- Port SP`p`. -/
def State.port (s : State) (p : Station) : Port := s.ports[p]

/-- Replace slot `i`. -/
def State.setSlot (s : State) (i : SlotNo) (x : Slot) : State := { s with slots := s.slots.set i x }

/-- Change every slot by its number. -/
def State.mapSlots (s : State) (f : SlotNo → Slot → Slot) : State :=
  { s with slots := Vector.ofFn fun i => f i (s.slot i) }

/-- Replace channel `n`. -/
def State.setChannel (s : State) (n : ChannelNo) (x : Channel) : State :=
  { s with channels := s.channels.set n x }

/-- Change every channel by its number. -/
def State.mapChannels (s : State) (f : ChannelNo → Channel → Channel) : State :=
  { s with channels := Vector.ofFn fun n => f n (s.channel n) }

/-- Replace the record of station `st`. -/
def State.setStation (s : State) (st : Station) (x : StationRec) : State :=
  { s with stations := s.stations.set st x }

/-- Change every station record by its number. -/
def State.mapStations (s : State) (f : Station → StationRec → StationRec) : State :=
  { s with stations := Vector.ofFn fun st => f st (s.station st) }

/-- Replace port SP`p`. -/
def State.setPort (s : State) (p : Station) (x : Port) : State := { s with ports := s.ports.set p x }

end Sys2Proof.Machine
end

