-- ==== Sys2Proof/Machine/Operands.lean ====
section
/-! DEFINITION. The forms of the fields of requests and replies: how a byte is read as an operand, and the codes and
byte orders of the reply fields (chapter 11). -/

namespace Sys2Proof.Machine

open Sys2Proof

/-! ## Reply bytes -/

/-- A numeric field of one byte. -/
def byteOf (n : Nat) : Byte := BitVec.ofNat 8 n

/-- A numeric field of two bytes, most significant byte first (R164). -/
def twoBytes (n : Nat) : List Byte := [byteOf (n / 256), byteOf n]

/-- One bit position of a byte: set exactly when `b` holds. -/
def bitAt (b : Bool) (position : Nat) : Byte := if b then BitVec.ofNat 8 (2 ^ position) else 0#8

/-- A yes or no field: 0 no, 1 yes (R168). -/
def flagByte (b : Bool) : Byte := if b then 1#8 else 0#8

/-! ## Operands of requests -/

/-- A channel operand: 0 to 31, none outside that range (R167). -/
def channelOf? (b : Byte) : Option ChannelNo := if h : b.toNat < 32 then some ⟨b.toNat, h⟩ else none

/-- The channels of a list of channel operands, those in range, in their order. -/
def channelsOf (bs : List Byte) : List ChannelNo := bs.filterMap channelOf?

/-- A station operand: 0 to 3 (R167). -/
def stationOf? (b : Byte) : Option Station := if h : b.toNat < 4 then some ⟨b.toNat, h⟩ else none

/-- A class or index operand: 0 to 3 (R167). -/
def indexOf4? (b : Byte) : Option (Fin 4) := if h : b.toNat < 4 then some ⟨b.toNat, h⟩ else none

/-- A handle operand: slot times eight plus generation; none for a handle that names slot 24 to 31 (R5, R7). -/
def Handle.ofByte? (b : Byte) : Option Handle :=
  if h : b.toNat / 8 < 24 then some ⟨⟨b.toNat / 8, h⟩, ⟨b.toNat % 8, Nat.mod_lt _ (by decide)⟩⟩ else none

/-- The byte of a handle (R5). -/
def Handle.toByte (h : Handle) : Byte := byteOf (h.slot.val * 8 + h.gen.val)

/-- The handle field that says "no lease" (R5). -/
def noLease : Byte := 0xFF#8

/-- A fallback code (R169): 0 LOW, 1 HIGH, 2 OFF. -/
def Steady.ofCode? (n : Nat) : Option Steady :=
  if n = 0 then some .low else if n = 1 then some .high else if n = 2 then some .off else none

/-- The code of a fallback, and of the drive mode it shares (R169). -/
def Steady.code : Steady → Nat
  | .low => 0
  | .high => 1
  | .off => 2

/-- A drive mode with its value, where the mode is known and the value legal for it (R84 step 5): 0 for LOW, HIGH
and OFF, a duty of 1 to 255 for PWM, a length of 1 to 255 for a pulse. -/
def Drive.ofEntry? (mode value : Byte) : Option Drive :=
  let v := value.toNat
  if mode = 0#8 then (if v = 0 then some (.steady .low) else none)
  else if mode = 1#8 then (if v = 0 then some (.steady .high) else none)
  else if mode = 2#8 then (if v = 0 then some (.steady .off) else none)
  else if mode = 3#8 then (if v = 0 then none else some (.pwm v))
  else if mode = 4#8 then (if v = 0 then none else some (.pulse .high v))
  else if mode = 5#8 then (if v = 0 then none else some (.pulse .low v))
  else none

/-- The drive mode code of a drive record (R169). -/
def Drive.modeCode : Drive → Nat
  | .steady v => v.code
  | .pwm _ => 3
  | .pulse .high _ => 4
  | .pulse .low _ => 5

/-- The value of a drive record: its duty or length, 0 for a steady drive (R71). -/
def Drive.value : Drive → Nat
  | .steady _ => 0
  | .pwm duty => duty
  | .pulse _ length => length

/-- The options byte of a CLAIM (R167): WAIT at bit 0. -/
def claimWait (options : Byte) : Bool := options.getLsbD 0

/-- The options byte of a CLAIM (R167): PREEMPT at bit 1. -/
def claimPreempt (options : Byte) : Bool := options.getLsbD 1

/-- The options byte of a CLAIM sets a position that it does not define (R24). -/
def claimOptionsUndefined (options : Byte) : Bool := decide (4 ≤ options.toNat)

/-- The fallback and sense byte of CONFIG_CHANNEL (R167): fallback code in bits 1 and 0, sense check on in bit 2,
the other positions undefined. -/
def configOf? (config : Byte) : Option (Steady × Bool) :=
  if 8 ≤ config.toNat then none
  else match Steady.ofCode? (config.toNat % 4) with
    | some fallback => some (fallback, config.getLsbD 2)
    | none => none

/-- The source of a CONFIG_CLOCK source and edge byte: bit 0 (R167). -/
def clockSourceOf (sourceEdge : Byte) : ClockSource := if sourceEdge.getLsbD 0 then .external else .internal

/-- The edge of a CONFIG_CLOCK source and edge byte: bit 1 (R167). -/
def clockEdgeOf (sourceEdge : Byte) : Edge := if sourceEdge.getLsbD 1 then .falling else .rising

/-- The mask byte of SET_MASK: bits 0 to 2 the lease kinds, bits 3 to 5 the device kinds (R169). -/
def NoticeMask.ofByte (b : Byte) : NoticeMask :=
  ⟨⟨b.getLsbD 0, b.getLsbD 1, b.getLsbD 2⟩, ⟨b.getLsbD 3, b.getLsbD 4, b.getLsbD 5⟩⟩

/-! ## Codes of reply fields (R169) -/

/-- A lease notice set, bits 0 to 2. -/
def LeaseNotices.toByte (n : LeaseNotices) : Byte := bitAt n.granted 0 ||| bitAt n.warning 1 ||| bitAt n.lapsed 2

/-- A device notice set, bits 3 to 5. -/
def DeviceNotices.toByte (n : DeviceNotices) : Byte := bitAt n.fault 3 ||| bitAt n.hold 4 ||| bitAt n.clear 5

/-- The lapse cause codes. -/
def LapseCause.toByte : LapseCause → Byte
  | .expired => 1#8
  | .preempted => 2#8
  | .revoked => 3#8
  | .fault => 4#8
  | .supply => 5#8
  | .clock => 6#8

/-- The lapse cause field of a lease: NONE outside LAPSED. -/
def LeaseState.causeByte : LeaseState → Byte
  | .pending => 0#8
  | .held => 0#8
  | .lapsed cause => cause.toByte

/-- The lease state codes. -/
def LeaseState.toByte : LeaseState → Byte
  | .pending => 1#8
  | .held => 2#8
  | .lapsed _ => 3#8

/-- The channel state codes. -/
def ChannelUse.toByte : ChannelUse → Byte
  | .idle => 0#8
  | .held _ => 1#8
  | .faulted => 2#8

/-- The supply state codes. -/
def SupplyState.toByte : SupplyState → Byte
  | .normal => 0#8
  | .low => 1#8
  | .recovering => 2#8

/-- The clock state codes. -/
def ClockState.toByte : ClockState → Byte
  | .running => 0#8
  | .lost => 1#8

/-- The last reset cause codes. -/
def ResetCause.toByte : ResetCause → Byte
  | .power => 1#8
  | .brownout => 2#8
  | .pin => 3#8

/-- The hold-down cause set: bit 0 SUPPLY, bit 1 CLOCK (R168). -/
def HoldCauses.toByte (c : HoldCauses) : Byte := bitAt c.supply 0 ||| bitAt c.clock 1

/-- The level of a sense input: 0 LOW, 1 HIGH (R168). -/
def levelByte : Level → Byte
  | .low => 0#8
  | .high => 1#8

/-- The reply status codes (R169). -/
inductive Status where
  | ok
  | granted
  | queued
  | badRequest
  | badArg
  | duplicate
  | notAttached
  | denied
  | stale
  | notHolder
  | lapsed
  | notHeld
  | notInLease
  | noSlot
  | quota
  | waitFull
  | noNotice
  | busyChannel
  | outranked
  | faulted
  | classLow
  | holdDown
  | inUse
deriving DecidableEq, Repr

/-- The value of each reply status (R169). -/
def Status.toByte : Status → Byte
  | .ok => 0x00#8
  | .granted => 0x01#8
  | .queued => 0x02#8
  | .badRequest => 0x10#8
  | .badArg => 0x11#8
  | .duplicate => 0x12#8
  | .notAttached => 0x13#8
  | .denied => 0x14#8
  | .stale => 0x20#8
  | .notHolder => 0x21#8
  | .lapsed => 0x22#8
  | .notHeld => 0x23#8
  | .notInLease => 0x24#8
  | .noSlot => 0x30#8
  | .quota => 0x31#8
  | .waitFull => 0x32#8
  | .noNotice => 0x33#8
  | .busyChannel => 0x40#8
  | .outranked => 0x41#8
  | .faulted => 0x42#8
  | .classLow => 0x43#8
  | .holdDown => 0x44#8
  | .inUse => 0x45#8

/-! ## The port status byte -/

/-- The port state codes, bits 1 and 0 of the port status byte. -/
def PortState.code : PortState → Nat
  | .idle => 0
  | .assembling => 1
  | .queued => 2
  | .reply => 3

/-- The port error codes, bits 7 to 5 of the port status byte. -/
def PortError.code : PortError → Nat
  | .none => 0
  | .truncated => 1
  | .stray => 2
  | .overrun => 3
  | .empty => 4
  | .withdrawn => 5

end Sys2Proof.Machine
end

