-- ==== Sys2Proof/Machine/Flags.lean ====
section
/-! DEFINITION. The conditions the part derives from its records: the ATN# condition of each station, the hold-down
flag, the counts that READ_STATUS reports, and the levels of the output pins. -/

namespace Sys2Proof.Machine

open Sys2Proof

/-! ## Views of one lease -/

/-- The lease is PENDING. -/
def Lease.isPending (l : Lease) : Bool := l.state == .pending

/-- The lease is HELD. -/
def Lease.isHeld (l : Lease) : Bool := l.state == .held

/-- The lease is LAPSED. -/
def Lease.isLapsed (l : Lease) : Bool :=
  match l.state with
  | .lapsed _ => true
  | .pending => false
  | .held => false

/-! ## Views of the lease table -/

/-- The lease in slot `i`, none while the slot is FREE. -/
def State.leaseAt (s : State) (i : SlotNo) : Option Lease := (s.slot i).lease

/-- The handle of the lease in slot `i`, or of the next lease created there (R5). -/
def State.handleAt (s : State) (i : SlotNo) : Handle := ⟨i, (s.slot i).gen⟩

/-- The lease a handle names: the slot is not FREE and stands at the handle's generation (R7 step 2). -/
def State.lookup (s : State) (h : Handle) : Option Lease :=
  if (s.slot h.slot).gen = h.gen then s.leaseAt h.slot else none

/-- A property of the lease in slot `i`; false of a FREE slot. -/
def State.slotHas (s : State) (p : Lease → Bool) (i : SlotNo) : Bool :=
  match s.leaseAt i with
  | some l => p l
  | none => false

/-- Some slot holds a lease with the property. -/
def State.anyLease (s : State) (p : Lease → Bool) : Bool := (List.finRange 24).any (s.slotHas p)

/-- How many slots hold a lease with the property. -/
def State.countLeases (s : State) (p : Lease → Bool) : Nat := (List.finRange 24).countP (s.slotHas p)

/-- A station's used slots (R19). -/
def State.usedSlots (s : State) (st : Station) : Nat := s.countLeases fun l => l.holder == st

/-- The lowest-numbered FREE slot (R9). -/
def State.lowestFree (s : State) : Option SlotNo := (List.finRange 24).find? fun i => (s.leaseAt i).isNone

/-- The wait position of the lease named by `h`: its 1-based index on the wait list (R38). -/
def State.waitPosition (s : State) (h : Handle) : Nat := s.waitList.idxOf h + 1

/-- How many PENDING leases list channel `n` (R88). -/
def State.waitingCount (s : State) (n : ChannelNo) : Nat :=
  s.countLeases fun l => l.isPending && l.channels.contains n

/-! ## Views of a channel -/

/-- The channel is IDLE. -/
def Channel.isIdle (c : Channel) : Bool := c.use == .idle

/-- The channel is FAULTED. -/
def Channel.isFaulted (c : Channel) : Bool := c.use == .faulted

/-- The channel is HELD. -/
def Channel.isHeld (c : Channel) : Bool :=
  match c.use with
  | .held _ => true
  | .idle => false
  | .faulted => false

/-- The holding lease of a HELD channel (R71). -/
def Channel.holding (c : Channel) : Option Handle :=
  match c.use with
  | .held u => some u.lease
  | .idle => none
  | .faulted => none

/-- How many channels are FAULTED (R72). -/
def State.faultedCount (s : State) : Nat := (List.finRange 32).countP fun n => (s.channel n).isFaulted

/-! ## Hold-down -/

/-- No hold-down cause is present. -/
def HoldCauses.isEmpty (c : HoldCauses) : Bool := !c.supply && !c.clock

/-- Hold-down is in force: the cause set is not empty (R138). -/
def State.holdDown (s : State) : Bool := !s.causes.isEmpty

/-! ## The ATN# condition -/

/-- Some lease kind of the mask is among the notices. -/
def LeaseNotices.meets (notices mask : LeaseNotices) : Bool :=
  (notices.granted && mask.granted) || (notices.warning && mask.warning) || (notices.lapsed && mask.lapsed)

/-- Some device kind of the mask is among the notices. -/
def DeviceNotices.meets (notices mask : DeviceNotices) : Bool :=
  (notices.fault && mask.fault) || (notices.hold && mask.hold) || (notices.clear && mask.clear)

/-- No lease notice is in the set. -/
def LeaseNotices.isEmpty (n : LeaseNotices) : Bool := !n.granted && !n.warning && !n.lapsed

/-- A station's ATN# condition (R113): attached, with a pending notice of a kind its mask enables; the pending
notices are those of its slots and, for station 0, the device notices. It is computed from the records it depends on,
so every change of one of them recomputes it in the same change. -/
def State.atnCondition (s : State) (st : Station) : Bool :=
  (s.station st).attached &&
    (s.anyLease (fun l => l.holder == st && l.notices.meets (s.station st).mask.lease) ||
      (st == 0 && s.deviceNotices.meets (s.station st).mask.device))

/-- The ATN# line is asserted, driven low: the condition is true and no device reset lasts (R134, R155). -/
def State.atnAsserted (s : State) (st : Station) : Bool := !s.resetCtl.active && s.atnCondition st

/-! ## The output pins -/

/-- What an output pin shows. -/
inductive PinLevel where
  | low
  | high
  | highZ
deriving DecidableEq, Repr

/-- The PWM frame period in microseconds by frame index (R76). -/
def framePeriod (index : Fin 4) : Nat :=
  if index = 0 then 10000 else if index = 1 then 4000 else if index = 2 then 1000 else 250

/-- A steady drive on the pin. -/
def Steady.pin : Steady → PinLevel
  | .low => .low
  | .high => .high
  | .off => .highZ

/-- A level on the pin. -/
def levelPin : Level → PinLevel
  | .low => .low
  | .high => .high

/-- The pin of a HELD channel `time` microseconds into the PWM frame of `period` microseconds: PWM of duty d is HIGH for
the first d of the frame's 256 steps and LOW for the rest (R77); a pulse drives its level (R80). -/
def Drive.pin (time period : Nat) : Drive → PinLevel
  | .steady v => v.pin
  | .pwm duty => if time * 256 < duty * period then .high else .low
  | .pulse level _ => levelPin level

/-- The level of output pin `n` (R73, R75 to R81, R134): high impedance while a device reset lasts, else the drive
record of a HELD channel, else the fallback. -/
def State.outPin (s : State) (n : ChannelNo) : PinLevel :=
  if s.resetCtl.active then .highZ
  else
    match (s.channel n).use with
    | .held u => u.drive.pin s.frameTime (framePeriod s.clock.frameIndex)
    | .idle => (s.channel n).fallback.pin
    | .faulted => (s.channel n).fallback.pin

end Sys2Proof.Machine
end

