-- ==== Sys2Proof/Machine/Ops.lean ====
section
/-! DEFINITION. The shared operations: the sense checker's starts, a lease's grant, lapse and freeing with what goes
with them in the channel table and the wait list, grant evaluation, and the entry and end of hold-down. -/

namespace Sys2Proof.Machine

open Sys2Proof

/-! ## What a channel presents to its sense checker -/

/-- The checked level of a steady drive (R83); none is UNCHECKED. -/
def Steady.checked : Steady → Option Level
  | .low => some .low
  | .high => some .high
  | .off => none

/-- The checked level of a drive record (R83). -/
def Drive.checked : Drive → Option Level
  | .steady v => v.checked
  | .pwm _ => none
  | .pulse level _ => some level

/-- The checked level a channel presents (R83): its drive record in HELD, else its fallback. -/
def Channel.checkedLevel (c : Channel) : Option Level :=
  match c.use with
  | .held u => u.drive.checked
  | .idle => c.fallback.checked
  | .faulted => c.fallback.checked

/-- Put the checker in a phase in which no timer runs. -/
def Channel.rest (c : Channel) (phase : Phase) : Channel :=
  { c with phase := phase, settleTimer := none, mismatchTimer := none }

/-- The checker enters SETTLING with its settle timer started (R92). -/
def Channel.settle (c : Channel) : Channel :=
  { c with phase := .settling, settleTimer := some 0, mismatchTimer := none }

/-- The checker enters MISMATCH with its mismatch timer started (R93, R94). -/
def Channel.mismatched (c : Channel) : Channel :=
  { c with phase := .mismatch, settleTimer := none, mismatchTimer := some 0 }

/-- A start of checking (R92), and what stands in its place where nothing is to be checked: STOPPED on a FAULTED
channel, INACTIVE with sense check off, SUSPENDED on an UNCHECKED level. -/
def Channel.startChecking (c : Channel) : Channel :=
  if c.isFaulted then c.rest .stopped
  else if !c.senseCheck then c.rest .inactive
  else
    match c.checkedLevel with
    | some _ => c.settle
    | none => c.rest .suspended

/-- Hand the checker a change from `old` to `new` (R83, R92): a start of checking if the checked level or the sense
check changed, and nothing if what is checked is as it was. -/
def Channel.recheck (old new : Channel) : Channel :=
  if new.checkedLevel = old.checkedLevel ∧ new.senseCheck = old.senseCheck then new else new.startChecking

/-! ## Changes of a channel's state -/

/-- A grant (R10): the channel is HELD by the lease `h`, its drive record equal to its fallback. The checker is handed
nothing (R83, R92). -/
def Channel.grant (h : Handle) (c : Channel) : Channel :=
  { c with use := .held ⟨h, .steady c.fallback, none, 0⟩ }

/-- The channel becomes IDLE at its fallback, its drive record, pulse and pending PWM change gone, and its checker
starts afresh (R13, R92). -/
def Channel.toFallback (c : Channel) : Channel := { c with use := .idle }.startChecking

/-- The channel becomes FAULTED and its checker STOPPED (R95, R96). -/
def Channel.fault (c : Channel) : Channel := { c with use := .faulted }.startChecking

/-! ## Changes of a lease -/

/-- The lease record at a grant (R10). -/
def Lease.grant (tick : Word) (l : Lease) : Lease :=
  { l with
    state := .held, remaining := l.term, grantTick := tick, renewTick := tick, renewCount := 0, warned := false }

/-- The lease record at a lapse (R11): the cause recorded and the LAPSED notice added; a LAPSED lease does not lapse
again. -/
def Lease.lapse (cause : LapseCause) (l : Lease) : Lease :=
  match l.state with
  | .lapsed _ => l
  | .pending => { l with state := .lapsed cause, notices := { l.notices with lapsed := true } }
  | .held => { l with state := .lapsed cause, notices := { l.notices with lapsed := true } }

/-- The lease record at a renewal (R55): `newTerm` replaces the term if it is not 0. -/
def Lease.renew (tick : Word) (newTerm : Nat) (l : Lease) : Lease :=
  let term := if newTerm = 0 then l.term else newTerm
  { l with
    term := term, remaining := term, warned := false, renewCount := min 255 (l.renewCount + 1), renewTick := tick }

/-- A slot at the lapse of its lease. -/
def Slot.lapse (cause : LapseCause) (x : Slot) : Slot := { x with lease := x.lease.map (Lease.lapse cause) }

/-- A slot at the freeing of its lease (R12): the record discarded and the generation advanced. A FREE slot keeps its
generation (R6). -/
def Slot.free (x : Slot) : Slot :=
  match x.lease with
  | some _ => ⟨x.gen + 1, none⟩
  | none => x

/-! ## Leaving HELD and PENDING -/

/-- Channel `n` is in the channel set of a HELD lease in one of the slots `p`. -/
def State.listedHeld (s : State) (p : SlotNo → Bool) (n : ChannelNo) : Bool :=
  (List.finRange 24).any fun i => p i && s.slotHas (fun l => l.isHeld && l.channels.contains n) i

/-- The leases of the slots `p` leave HELD or PENDING: each HELD channel of a HELD one becomes IDLE at its fallback
(R13), and the entry of each PENDING one leaves the wait list, the others closing up (R14). -/
def State.leave (s : State) (p : SlotNo → Bool) : State :=
  { s.mapChannels fun n c => if s.listedHeld p n && c.isHeld then c.toFallback else c with
    waitList := s.waitList.filter fun h => !p h.slot }

/-- The leases of the slots `p` lapse with the cause, as one change (R11, R13, R14, R16). -/
def State.lapse (s : State) (p : SlotNo → Bool) (cause : LapseCause) : State :=
  (s.leave p).mapSlots fun i x => if p i then x.lapse cause else x

/-- The slots `p` become FREE, as one change (R12, R13, R14, R16). -/
def State.free (s : State) (p : SlotNo → Bool) : State :=
  (s.leave p).mapSlots fun i x => if p i then x.free else x

/-! ## Grants -/

/-- The lease in slot `i` becomes HELD (R10): its record takes the tick counter, and its channels become HELD. -/
def State.makeHeld (s : State) (i : SlotNo) : State :=
  match s.leaseAt i with
  | none => s
  | some l =>
    (s.setSlot i { s.slot i with lease := some (l.grant s.clock.tickCounter) }).mapChannels fun n c =>
      if l.channels.contains n then c.grant (s.handleAt i) else c

/-- A grant from the wait list (R10, R40): the lease named by the entry becomes HELD, its GRANTED notice is set, and
its entry is removed. -/
def State.grantWaiting (s : State) (h : Handle) : State :=
  { (s.makeHeld h.slot).mapSlots fun i x =>
      if i = h.slot then
        { x with lease := x.lease.map fun l => { l with notices := { l.notices with granted := true } } }
      else x with
    waitList := s.waitList.erase h }

/-- The three conditions of R39 for a waiting lease, against the channels passed over so far. -/
def State.grantable (s : State) (passed : List ChannelNo) (l : Lease) : Bool :=
  s.causes.isEmpty && l.channels.all (fun n => (s.channel n).isIdle) && l.channels.all (fun n => !passed.contains n)

/-- The pass of grant evaluation over the entries that remain (R39): an entry is granted, or its channels join the
passed-over channels. -/
def evaluationPass : List Handle → List ChannelNo → State → State
  | [], _, s => s
  | h :: rest, passed, s =>
    match s.lookup h with
    | none => evaluationPass rest passed s
    | some l =>
      if s.grantable passed l then evaluationPass rest passed (s.grantWaiting h)
      else evaluationPass rest (passed ++ l.channels) s

/-- Grant evaluation: one pass over the wait list from the head to the tail (R39). -/
def State.grantEvaluation (s : State) : State := evaluationPass s.waitList [] s

/-- Run grant evaluation if the change triggers it (R15, R41). -/
def State.evaluateIf (s : State) (triggered : Bool) : State := if triggered then s.grantEvaluation else s

/-- Some lease of the slots `p` is HELD or PENDING, so that its lapse or freeing triggers grant evaluation (R15). -/
def State.anyActive (s : State) (p : SlotNo → Bool) : Bool :=
  (List.finRange 24).any fun i => p i && s.slotHas (fun l => !l.isLapsed) i

/-! ## Expiry -/

/-- Every HELD lease whose remaining is 0 lapses with cause EXPIRED, and grant evaluation runs once after all of them
(R50, R53). -/
def State.expireDue (s : State) : State :=
  let due : SlotNo → Bool := s.slotHas fun l => l.isHeld && l.remaining == 0
  (s.lapse due .expired).evaluateIf (s.anyActive due)

/-! ## Hold-down -/

/-- The two causes of hold-down (R138). -/
inductive HoldCause where
  | supply
  | clock
deriving DecidableEq, Repr

/-- The lapse cause that a hold-down entry with the cause records (R139). -/
def HoldCause.lapseCause : HoldCause → LapseCause
  | .supply => .supply
  | .clock => .clock

/-- The cause set with the cause present or absent. -/
def HoldCauses.put (c : HoldCauses) (k : HoldCause) (present : Bool) : HoldCauses :=
  match k with
  | .supply => { c with supply := present }
  | .clock => { c with clock := present }

/-- A cause enters the set (R138). Into an empty set this is the entry of hold-down (R139): every HELD lease lapses
with the cause and HOLD is raised, and no evaluation runs. Into a non-empty set the cause only joins. -/
def State.enterHold (s : State) (k : HoldCause) : State :=
  if s.causes.isEmpty then
    { s.lapse (s.slotHas Lease.isHeld) k.lapseCause with
      causes := s.causes.put k true, deviceNotices := { s.deviceNotices with hold := true } }
  else { s with causes := s.causes.put k true }

/-- A cause leaves the set (R138). If the set becomes empty this is the end of hold-down (R141): CLEAR is raised, then
grant evaluation runs. If the other cause stays, nothing else happens. -/
def State.leaveHold (s : State) (k : HoldCause) : State :=
  let causes := s.causes.put k false
  if !s.causes.isEmpty && causes.isEmpty then
    State.grantEvaluation { s with causes := causes, deviceNotices := { s.deviceNotices with clear := true } }
  else { s with causes := causes }

/-! ## A device notice of a fault -/

/-- The device notice FAULT is set (R112). -/
def State.raiseFault (s : State) : State := { s with deviceNotices := { s.deviceNotices with fault := true } }

end Sys2Proof.Machine
end

