-- ==== Sys2Proof/Machine/Ports.lean ====
section
/-! DEFINITION. The station ports (chapter 9): what each bus cycle does to its port, and the seven port commands. -/

namespace Sys2Proof.Machine

open Sys2Proof

/-! ## Request lengths -/

/-- The length of a request whose bytes so far are given, the command byte first; none while it is not yet known
(R146). -/
def expectedLength (bytes : List Byte) : Option Nat :=
  match bytes with
  | [] => none
  | command :: fields =>
    match RequestCode.ofByte? command with
    | none => none
    | some .readStatus => some 1
    | some .attach => some 1
    | some .detach => some 1
    | some .poll => some 1
    | some .renewAll => some 1
    | some .restart => some 1
    | some .queryChannel => some 2
    | some .queryLease => some 2
    | some .listLeases => some 2
    | some .setMask => some 2
    | some .release => some 2
    | some .configSupply => some 2
    | some .clearFault => some 2
    | some .revoke => some 2
    | some .renew => some 4
    | some .configChannel => some 4
    | some .configStation => some 4
    | some .configClock => some 6
    | some .claim =>
      match fields[4]? with
      | some count => some (6 + announced count)
      | none => none
    | some .drive =>
      match fields[1]? with
      | some count => some (3 + 3 * announced count)
      | none => none

/-! ## The bus cycles on one port -/

/-- The port with the bytes of a request in its buffer: QUEUED if they make a whole request, else ASSEMBLING (R146). -/
def Port.holding (p : Port) (bytes : List Byte) : Port :=
  { p with
    state := if expectedLength bytes = some bytes.length then .queued else .assembling,
    request := bytes,
    expected := expectedLength bytes }

/-- Discard whatever the port holds and leave it IDLE with both buffers empty (R151); the error field is kept. -/
def Port.discard (p : Port) : Port :=
  { p with state := .idle, request := [], expected := none, reply := [], readPos := 0 }

/-- Record a port error in place of the one before it (R153). -/
def Port.record (p : Port) (e : PortError) : Port := { p with error := e }

/-- Place a reply: the request buffer is empty, the read position 0 and the port in REPLY (R149, R157). -/
def Port.placeReply (p : Port) (bytes : List Byte) : Port :=
  { p with state := .reply, request := [], expected := none, reply := bytes, readPos := 0 }

/-- A command byte that names a request (R145). -/
def Port.knownCommand (p : Port) (code : RequestCode) : Port :=
  match p.state with
  | .idle => p.discard.holding [code.toByte]
  | .reply => p.discard.holding [code.toByte]
  | .assembling => (p.record .truncated).discard.holding [code.toByte]
  | .queued => p.record .overrun

/-- A command byte that names no request (R148). -/
def Port.unknownCommand (p : Port) : Port :=
  match p.state with
  | .idle => p.placeReply [Status.badRequest.toByte]
  | .reply => p.placeReply [Status.badRequest.toByte]
  | .assembling => (p.record .truncated).placeReply [Status.badRequest.toByte]
  | .queued => p.record .overrun

/-- A data byte (R147). -/
def Port.dataCycle (p : Port) (b : Byte) : Port :=
  match p.state with
  | .assembling => p.holding (p.request ++ [b])
  | .idle => p.record .stray
  | .reply => p.record .stray
  | .queued => p.record .overrun

/-- ABORT (R151). -/
def Port.abortCycle (p : Port) : Port :=
  match p.state with
  | .queued => (p.record .withdrawn).discard
  | .idle => p.discard
  | .assembling => p.discard
  | .reply => p.discard

/-- REPLAY (R150). -/
def Port.replayCycle (p : Port) : Port :=
  match p.state with
  | .reply => { p with readPos := 0 }
  | .idle => p.record .stray
  | .assembling => p.record .stray
  | .queued => p.record .stray

/-- A byte written in the command position (R144): a control byte, the name of a request, or neither. -/
def Port.commandCycle (p : Port) (b : Byte) : Port :=
  if b = abortByte then p.abortCycle
  else if b = replayByte then p.replayCycle
  else
    match RequestCode.ofByte? b with
    | some code => p.knownCommand code
    | none => p.unknownCommand

/-- The bytes of a request, written one after another: the first in the command position, the others as data. -/
def Port.writeRequest (p : Port) (bytes : List Byte) : Port :=
  match bytes with
  | [] => p
  | command :: fields => fields.foldl Port.dataCycle (p.commandCycle command)

/-- A data read (R149). -/
def Port.dataReadCycle (p : Port) : Port :=
  match p.state with
  | .reply =>
    match p.reply[p.readPos]? with
    | some b => { p with readPos := p.readPos + 1, dataBus := some b }
    | none => { p with error := .empty, dataBus := some 0#8 }
  | .idle => { p with error := .empty, dataBus := some 0#8 }
  | .assembling => { p with error := .empty, dataBus := some 0#8 }
  | .queued => { p with error := .empty, dataBus := some 0#8 }

/-- MORE: the port is in REPLY with a byte still unread (R154). -/
def Port.more (p : Port) : Bool := p.state == .reply && decide (p.readPos < p.reply.length)

/-- The port status byte (R154, R169): port state in bits 1 and 0, MORE in bit 2, ATN in bit 3, HOLD in bit 4, error in
bits 7 to 5. -/
def State.portStatusByte (s : State) (p : Station) : Byte :=
  byteOf ((s.port p).state.code + 32 * (s.port p).error.code)
    ||| bitAt (s.port p).more 2 ||| bitAt (s.atnCondition p) 3 ||| bitAt s.holdDown 4

/-! ## The port commands -/

/-- A cycle that writes to port `p`; while a device reset lasts the port takes no bytes (R134, R144). -/
def State.writeCycle (s : State) (p : Station) (cycle : Port → Port) : State :=
  if s.resetCtl.active then s else s.setPort p (cycle (s.port p))

/-- A cycle that reads port `p`; while a device reset lasts the port does not drive the data bus (R144). -/
def State.readCycle (s : State) (p : Station) (cycle : Port → Port) : State :=
  if s.resetCtl.active then s.setPort p { s.port p with dataBus := none } else s.setPort p (cycle (s.port p))

/-- COMMAND_BYTE: a command byte that names a request (R145). -/
def execCommandByte (p : Station) (code : RequestCode) (s : State) : Host.Outcome State Fault Refusal :=
  .next (s.writeCycle p fun q => q.knownCommand code)

/-- DATA_BYTE (R147). -/
def execDataByte (p : Station) (b : Byte) (s : State) : Host.Outcome State Fault Refusal :=
  .next (s.writeCycle p fun q => q.dataCycle b)

/-- UNKNOWN_COMMAND_BYTE: a command byte that names no request (R148). A byte that does name something is taken in the
command position as what it names (R144). DESIGN CHOICE (log entry 16). -/
def execUnknownCommandByte (p : Station) (b : Byte) (s : State) : Host.Outcome State Fault Refusal :=
  .next (s.writeCycle p fun q => q.commandCycle b)

/-- ABORT (R151, R152). -/
def execAbort (p : Station) (s : State) : Host.Outcome State Fault Refusal :=
  .next (s.writeCycle p Port.abortCycle)

/-- REPLAY (R150). -/
def execReplay (p : Station) (s : State) : Host.Outcome State Fault Refusal :=
  .next (s.writeCycle p Port.replayCycle)

/-- STATUS_READ: the port status byte is returned with the error as it was, and the error field is cleared (R154). -/
def execStatusRead (p : Station) (s : State) : Host.Outcome State Fault Refusal :=
  .next (s.readCycle p fun q => { q with dataBus := some (s.portStatusByte p), error := .none })

/-- DATA_READ: the next reply byte, or 0x00 with error EMPTY (R149). -/
def execDataRead (p : Station) (s : State) : Host.Outcome State Fault Refusal :=
  .next (s.readCycle p Port.dataReadCycle)

end Sys2Proof.Machine
end

