-- ==== Sys2Proof/Machine/Engine.lean ====
section
/-! DEFINITION. The request engine: its arbiter, the take of a request, the order of checks and the forms of a
reply (R156, R157, R164, R165). -/

namespace Sys2Proof.Machine

open Sys2Proof

/-! ## The arbiter -/

/-- The port the arbiter takes next (R156): the first QUEUED port in the order that begins after the last-served port.
None while no port is QUEUED, or while a device reset lasts. -/
def State.arbiterChoice (s : State) : Option Station :=
  if s.resetCtl.active then none
  else [s.pointer + 1, s.pointer + 2, s.pointer + 3, s.pointer].find? fun p => (s.port p).state == .queued

/-- The request the engine takes next (R156, R164). -/
def State.nextTake (s : State) : Option Instr :=
  match s.arbiterChoice with
  | none => none
  | some st => decodeRequest st (s.port st).request

/-! ## The take -/

/-- Port `st` is QUEUED with exactly these bytes, and they make a complete request (R146, R157). -/
def State.waitsWith (s : State) (st : Station) (bytes : List Byte) : Bool :=
  (s.port st).state == .queued && (s.port st).request == bytes && expectedLength bytes == some bytes.length

/-- The request stands in its port: it waits there already, or else the station's bus cycles that write it are made
now, each byte as the port takes it. DESIGN CHOICE (log entry 2). -/
def State.deliver (s : State) (st : Station) (bytes : List Byte) : State :=
  if s.waitsWith st bytes then s else s.writeCycle st fun q => q.writeRequest bytes

/-- The first step of a take (R156, R157): the request buffer is emptied and the rotation pointer names the port. -/
def State.beginTake (s : State) (st : Station) : State :=
  { s.setPort st { s.port st with request := [], expected := none } with pointer := st }

/-- The last steps of a take (R157): the reply is placed and the port enters REPLY. -/
def State.placeReply (s : State) (st : Station) (reply : List Byte) : State :=
  s.setPort st ((s.port st).placeReply reply)

/-- The state and the reply that a request's effect leaves. -/
abbrev Answer := State × List Byte

/-- The engine's take of a request of station `st` (R157): where the request waits in its port and the port is the
arbiter's choice, its effect is applied and its reply placed, in one change. Otherwise the request, if the port could
take its bytes, waits its turn (R156), and while a device reset lasts nothing happens. -/
def engineTake (st : Station) (bytes : List Byte) (effect : State → Answer) (s : State) :
    Host.Outcome State Fault Refusal :=
  if s.resetCtl.active then .next s
  else
    let w := s.deliver st bytes
    if w.arbiterChoice = some st ∧ w.waitsWith st bytes = true then
      let answer := effect (w.beginTake st)
      .next (answer.1.placeReply st answer.2)
    else .next w

/-! ## Checks and replies -/

/-- The status of the first check that fails, in the order given (R164). -/
def firstFailing : List (Bool × Status) → Option Status
  | [] => none
  | (fails, status) :: rest => if fails then some status else firstFailing rest

/-- The refusal form: the status byte alone, and no state changed (R165). -/
def refuse (s : State) (status : Status) : Answer := (s, [status.toByte])

/-- The success form with status OK (R165). -/
def accept (s : State) (fields : List Byte) : Answer := (s, Status.ok.toByte :: fields)

/-- The station is detached (R105). -/
def State.detached (s : State) (st : Station) : Bool := !(s.station st).attached

/-- The checks that stand before every argument check of a supervisor request (R160). -/
def State.supervisorChecks (s : State) (st : Station) : List (Bool × Status) :=
  [(s.detached st, .notAttached), (st != 0, .denied)]

end Sys2Proof.Machine
end

