-- ==== Sys2Proof/Machine/Claims.lean ====
section
/-! DEFINITION. CLAIM (chapter 2): its checks, the immediate grant, preemption, queueing and refusal. -/

namespace Sys2Proof.Machine

open Sys2Proof

/-! ## Checks -/

/-- The argument checks of a CLAIM, in order (R25 steps 2 to 6). -/
def claimArgumentChecks (st : Station) (options : Byte) (term : Word) (warnMargin count : Byte) (channels : List Byte)
    (s : State) : List (Bool × Status) :=
  [(s.detached st, .notAttached),
    (decide (count.toNat < 1 ∨ 8 < count.toNat), .badArg),
    (channels.any fun b => (channelOf? b).isNone, .badArg),
    (decide ¬ channels.Nodup, .duplicate),
    (decide (term.toNat = 0) || decide (term.toNat ≤ warnMargin.toNat) || claimOptionsUndefined options, .badArg)]

/-- The admission checks of a CLAIM, in order (R26 steps 7 to 11). -/
def claimAdmissionChecks (st : Station) (channels : List ChannelNo) (s : State) : List (Bool × Status) :=
  [(channels.any fun n => decide ((s.station st).cls < (s.channel n).minClass), .classLow),
    (channels.any fun n => (s.channel n).isFaulted, .faulted),
    (s.holdDown, .holdDown),
    (decide (s.usedSlots st = (s.station st).quota), .quota),
    (s.lowestFree.isNone, .noSlot)]

/-! ## Availability -/

/-- The lease lists some of the channels. -/
def Lease.lists (l : Lease) (channels : List ChannelNo) : Bool := channels.any fun n => l.channels.contains n

/-- The two conditions of an immediate grant (R28): every channel IDLE, and no PENDING lease of equal or higher class
lists one of them. -/
def State.grantableAtOnce (s : State) (st : Station) (channels : List ChannelNo) : Bool :=
  channels.all (fun n => (s.channel n).isIdle) &&
    !s.anyLease fun l => l.isPending && decide ((s.station st).cls ≤ (s.station l.holder).cls) && l.lists channels

/-- The class of the holder of the lease a handle names; none where it names none. -/
def State.classOf (s : State) (h : Handle) : Option (Fin 4) :=
  match s.lookup h with
  | some l => some (s.station l.holder).cls
  | none => none

/-- The entry's lease belongs to a station of class `c` or higher. -/
def State.entryAtLeast (s : State) (c : Fin 4) (e : Handle) : Bool :=
  match s.classOf e with
  | some d => decide (c ≤ d)
  | none => false

/-- A channel passes the test of preemption (R30): IDLE, or HELD by a lease whose holder's class is strictly lower. -/
def State.preemptible (s : State) (st : Station) (n : ChannelNo) : Bool :=
  match (s.channel n).use with
  | .idle => true
  | .faulted => false
  | .held u =>
    match s.classOf u.lease with
    | some c => decide (c < (s.station st).cls)
    | none => false

/-- The slots whose leases hold a channel of the claim (R31 step 1). -/
def State.victims (s : State) (channels : List ChannelNo) (i : SlotNo) : Bool :=
  channels.any fun n => (s.channel n).holding == some (s.handleAt i)

/-! ## Creating the lease -/

/-- A lease as its claim creates it, PENDING (R9). -/
def Lease.ofClaim (st : Station) (term : Word) (warnMargin : Byte) (channels : List ChannelNo) : Lease where
  holder := st
  state := .pending
  channels := channels
  term := term.toNat
  remaining := term.toNat
  warnMargin := warnMargin.toNat
  warned := false
  renewCount := 0
  grantTick := 0
  renewTick := 0
  notices := .empty

/-- The slot takes the record, at its present generation (R5, R9). -/
def State.create (s : State) (i : SlotNo) (l : Lease) : State := s.setSlot i { s.slot i with lease := some l }

/-- Insert an entry after the last entry whose holder's class is equal to or higher than its own, at the head if there
is none (R36). `atLeast` says of an entry that its class is equal or higher. -/
def insertEntry (atLeast : Handle → Bool) (h : Handle) : List Handle → List Handle
  | [] => [h]
  | e :: rest => if (e :: rest).any atLeast then e :: insertEntry atLeast h rest else h :: e :: rest

/-- The lease `l` is created PENDING in slot `i`, and its entry inserted in the wait list by class (R33, R36). -/
def State.enqueue (s : State) (i : SlotNo) (l : Lease) : State :=
  { s.create i l with
    waitList := insertEntry (s.entryAtLeast (s.station l.holder).cls) (s.handleAt i) s.waitList }

/-! ## The outcomes -/

/-- The reply of a CLAIM: status, handle and wait position (R27). -/
def claimReply (status : Status) (handle : Byte) (position : Nat) : List Byte :=
  [status.toByte, handle, byteOf position]

/-- A refused CLAIM changes nothing (R27). -/
def claimRefused (s : State) (status : Status) : Answer := (s, claimReply status noLease 0)

/-- Granted at once (R28): the lease is created HELD, with no GRANTED notice and no evaluation. -/
def claimGranted (s : State) (i : SlotNo) (l : Lease) : Answer :=
  ((s.create i l).makeHeld i, claimReply .granted (s.handleAt i).toByte 0)

/-- Granted by preemption (R31): the victims lapse, the lease is created HELD, and evaluation runs if a lease
lapsed. -/
def claimPreempted (s : State) (i : SlotNo) (l : Lease) : Answer :=
  let victims := s.victims l.channels
  let granted := ((s.lapse victims .preempted).create i l).makeHeld i
  (granted.evaluateIf ((List.finRange 24).any victims), claimReply .granted (s.handleAt i).toByte 0)

/-- Queued (R33): PENDING, with no evaluation. -/
def claimQueued (s : State) (i : SlotNo) (l : Lease) : Answer :=
  let queued := s.enqueue i l
  (queued, claimReply .queued (s.handleAt i).toByte (queued.waitPosition (s.handleAt i)))

/-- The outcome of an admitted claim for the lease `l`, with slot `i` the lowest FREE slot (R28 to R34). -/
def claimOutcome (options : Byte) (i : SlotNo) (l : Lease) (s : State) : Answer :=
  if s.grantableAtOnce l.holder l.channels then claimGranted s i l
  else if claimPreempt options && l.channels.all (s.preemptible l.holder) then claimPreempted s i l
  else if claimWait options then
    if !(s.station l.holder).mask.lease.granted then claimRefused s .noNotice
    else if 16 ≤ s.waitList.length then claimRefused s .waitFull
    else claimQueued s i l
  else if claimPreempt options then claimRefused s .outranked
  else claimRefused s .busyChannel

/-- The effect of CLAIM (R24 to R34). -/
def claimEffect (st : Station) (options : Byte) (term : Word) (warnMargin count : Byte) (channels : List Byte)
    (s : State) : Answer :=
  match firstFailing
      (claimArgumentChecks st options term warnMargin count channels s
        ++ claimAdmissionChecks st (channelsOf channels) s) with
  | some status => claimRefused s status
  | none =>
    match s.lowestFree with
    | none => claimRefused s .noSlot
    | some i => claimOutcome options i (Lease.ofClaim st term warnMargin (channelsOf channels)) s

/-- CLAIM (R24 to R34). -/
def execClaim (st : Station) (options : Byte) (term : Word) (warnMargin count : Byte) (channels : List Byte)
    (s : State) : Host.Outcome State Fault Refusal :=
  engineTake st (Instr.claim st options term warnMargin count channels).requestBytes
    (claimEffect st options term warnMargin count channels) s

end Sys2Proof.Machine
end

