-- ==== Sys2Proof/Machine/Queries.lean ====
section
/-! DEFINITION. The requests that read the part and change nothing: READ_STATUS, QUERY_CHANNEL, QUERY_LEASE and
LIST_LEASES. -/

namespace Sys2Proof.Machine

open Sys2Proof

/-! ## READ_STATUS -/

/-- The clock echo (R168): bit 7 the source, bits 2 to 0 the rate index in force. -/
def LeaseClock.echo (c : LeaseClock) : Byte :=
  match c.source with
  | .internal => byteOf c.periodIndex.val
  | .external => byteOf (128 + c.divisorIndex.val)

/-- The fields of a READ_STATUS reply (R158, R168). -/
def State.statusFields (s : State) : List Byte :=
  [s.causes.toByte, s.supply.state.toByte, s.clock.state.toByte]
    ++ twoBytes s.clock.tickCounter.toNat
    ++ [byteOf (s.countLeases fun _ => true), byteOf (s.countLeases Lease.isPending), byteOf s.faultedCount,
      s.lastReset.toByte, byteOf s.restartCount, s.clock.echo]

/-- The effect of READ_STATUS (R158): no check, and nothing changed. -/
def readStatusEffect (s : State) : Answer := accept s s.statusFields

/-- READ_STATUS (R158). -/
def execReadStatus (st : Station) (s : State) : Host.Outcome State Fault Refusal :=
  engineTake st (Instr.readStatus st).requestBytes readStatusEffect s

/-! ## QUERY_CHANNEL -/

/-- The configuration byte (R168): fallback code in bits 1 and 0, sense check in bit 2, minimum class in bits 5 and 4. -/
def Channel.configByte (c : Channel) : Byte :=
  byteOf (c.fallback.code + 16 * c.minClass.val) ||| bitAt c.senseCheck 2

/-- The drive mode and value, the pending PWM duty and the pulse remaining (R88): the drive record's in HELD, else the
fallback as mode with nothing else. -/
def Channel.driveFields (c : Channel) : List Byte :=
  match c.use with
  | .held u => [byteOf u.drive.modeCode, byteOf u.drive.value, byteOf (u.pendingPwm.getD 0), byteOf u.pulse]
  | .idle => [byteOf c.fallback.code, 0#8, 0#8, 0#8]
  | .faulted => [byteOf c.fallback.code, 0#8, 0#8, 0#8]

/-- The holding lease field (R88). -/
def Channel.holdingByte (c : Channel) : Byte :=
  match c.holding with
  | some h => h.toByte
  | none => noLease

/-- The fields of a QUERY_CHANNEL reply (R88, R168). -/
def State.channelFields (s : State) (n : ChannelNo) : List Byte :=
  [byteOf n.val, (s.channel n).use.toByte, (s.channel n).configByte, (s.channel n).holdingByte]
    ++ (s.channel n).driveFields
    ++ [byteOf (s.waitingCount n), levelByte (s.channel n).senseLevel]

/-- The effect of QUERY_CHANNEL (R88). -/
def queryChannelEffect (channel : Byte) (s : State) : Answer :=
  match channelOf? channel with
  | none => refuse s .badArg
  | some n => accept s (s.channelFields n)

/-- QUERY_CHANNEL (R88). -/
def execQueryChannel (st : Station) (channel : Byte) (s : State) : Host.Outcome State Fault Refusal :=
  engineTake st (Instr.queryChannel st channel).requestBytes (queryChannelEffect channel) s

/-! ## QUERY_LEASE -/

/-- The wait position a query reports: that of a PENDING lease, else 0 (R20). -/
def State.waitField (s : State) (h : Handle) (l : Lease) : Nat := if l.isPending then s.waitPosition h else 0

/-- The fields of a QUERY_LEASE reply (R20, R168). -/
def State.leaseFields (s : State) (h : Handle) (l : Lease) : List Byte :=
  [h.toByte, byteOf l.holder.val, l.state.toByte, l.state.causeByte]
    ++ twoBytes l.term ++ twoBytes l.remaining
    ++ [byteOf l.warnMargin, flagByte l.warned, byteOf l.renewCount]
    ++ twoBytes l.grantTick.toNat ++ twoBytes l.renewTick.toNat
    ++ [l.notices.toByte, byteOf (s.waitField h l), byteOf l.channels.length]
    ++ l.channels.map fun n => byteOf n.val

/-- The effect of QUERY_LEASE (R20): the handle is resolved as R7 gives, with no holder check and no state check. -/
def queryLeaseEffect (handle : Byte) (s : State) : Answer :=
  match Handle.ofByte? handle with
  | none => refuse s .badArg
  | some h =>
    match s.lookup h with
    | none => refuse s .stale
    | some l => accept s (s.leaseFields h l)

/-- QUERY_LEASE (R20). -/
def execQueryLease (st : Station) (handle : Byte) (s : State) : Host.Outcome State Fault Refusal :=
  engineTake st (Instr.queryLease st handle).requestBytes (queryLeaseEffect handle) s

/-! ## LIST_LEASES -/

/-- The detail of a listed lease (R21): the wait position, the lapse cause, or 0. -/
def State.leaseDetail (s : State) (h : Handle) (l : Lease) : Byte :=
  match l.state with
  | .pending => byteOf (s.waitPosition h)
  | .held => 0#8
  | .lapsed cause => cause.toByte

/-- The slots of a station, in ascending order (R21). -/
def State.slotsOf (s : State) (st : Station) : List SlotNo :=
  (List.finRange 24).filter (s.slotHas fun l => l.holder == st)

/-- One entry of LIST_LEASES: handle, state and detail. -/
def State.listEntry (s : State) (i : SlotNo) : List Byte :=
  match s.leaseAt i with
  | some l => [(s.handleAt i).toByte, l.state.toByte, s.leaseDetail (s.handleAt i) l]
  | none => []

/-- The effect of LIST_LEASES (R21). -/
def listLeasesEffect (station : Byte) (s : State) : Answer :=
  match stationOf? station with
  | none => refuse s .badArg
  | some t => accept s (byteOf (s.slotsOf t).length :: (s.slotsOf t).flatMap s.listEntry)

/-- LIST_LEASES (R21). -/
def execListLeases (st : Station) (station : Byte) (s : State) : Host.Outcome State Fault Refusal :=
  engineTake st (Instr.listLeases st station).requestBytes (listLeasesEffect station) s

end Sys2Proof.Machine
end

