-- ==== Sys2Proof/Machine/Stations.lean ====
section
/-! DEFINITION. The requests of the station table (chapter 6): ATTACH, DETACH, SET_MASK, POLL and CONFIG_STATION. -/

namespace Sys2Proof.Machine

open Sys2Proof

/-! ## ATTACH -/

/-- Every kind a station may enable (R106): the lease kinds, and for station 0 the device kinds too. -/
def fullMask (st : Station) : NoticeMask := ⟨⟨true, true, true⟩, ⟨st == 0, st == 0, st == 0⟩⟩

/-- The effect of ATTACH (R106): a detached station is attached with the full mask; an attached one is unchanged. -/
def attachEffect (st : Station) (s : State) : Answer :=
  if s.detached st then
    accept (s.setStation st { s.station st with attached := true, mask := fullMask st }) []
  else accept s []

/-- ATTACH (R106). -/
def execAttach (st : Station) (s : State) : Host.Outcome State Fault Refusal :=
  engineTake st (Instr.attach st).requestBytes (attachEffect st) s

/-! ## DETACH -/

/-- The slots of station `st`. -/
def State.ownedBy (s : State) (st : Station) : SlotNo → Bool := s.slotHas fun l => l.holder == st

/-- The station is detached with an empty mask; class and quota stay (R107 step 2). -/
def StationRec.detach (r : StationRec) : StationRec := { r with attached := false, mask := .empty }

/-- The effect of DETACH (R107): every slot of the station is freed, the station is detached, and grant evaluation runs
once if a HELD or PENDING lease was among them. -/
def detachEffect (st : Station) (s : State) : Answer :=
  if s.detached st then refuse s .notAttached
  else
    let freed := s.free (s.ownedBy st)
    let gone := freed.setStation st (freed.station st).detach
    accept (gone.evaluateIf (s.anyActive (s.ownedBy st))) [byteOf (s.usedSlots st)]

/-- DETACH (R107). -/
def execDetach (st : Station) (s : State) : Host.Outcome State Fault Refusal :=
  engineTake st (Instr.detach st).requestBytes (detachEffect st) s

/-! ## SET_MASK -/

/-- The mask a station's mask byte sets: the device kinds only for station 0 (R109). -/
def maskFor (st : Station) (mask : Byte) : NoticeMask :=
  { NoticeMask.ofByte mask with device := if st = 0 then (NoticeMask.ofByte mask).device else .empty }

/-- The station holds a PENDING lease. -/
def State.hasPending (s : State) (st : Station) : Bool := s.anyLease fun l => l.holder == st && l.isPending

/-- The checks of SET_MASK, in order (R109). -/
def setMaskChecks (st : Station) (mask : Byte) (s : State) : List (Bool × Status) :=
  [(s.detached st, .notAttached),
    (decide (64 ≤ mask.toNat), .badArg),
    (!(maskFor st mask).lease.granted && s.hasPending st, .inUse)]

/-- The effect of SET_MASK (R109). -/
def setMaskEffect (st : Station) (mask : Byte) (s : State) : Answer :=
  match firstFailing (setMaskChecks st mask s) with
  | some status => refuse s status
  | none => accept (s.setStation st { s.station st with mask := maskFor st mask }) []

/-- SET_MASK (R109). -/
def execSetMask (st : Station) (mask : Byte) (s : State) : Host.Outcome State Fault Refusal :=
  engineTake st (Instr.setMask st mask).requestBytes (setMaskEffect st mask) s

/-! ## POLL -/

/-- The slots of a station whose notice set is not empty, in ascending order (R114). -/
def State.noticedSlots (s : State) (st : Station) : List SlotNo :=
  (List.finRange 24).filter (s.slotHas fun l => l.holder == st && !l.notices.isEmpty)

/-- One entry of POLL: handle, notices and lapse cause (R114). -/
def State.pollEntry (s : State) (i : SlotNo) : List Byte :=
  match s.leaseAt i with
  | some l => [(s.handleAt i).toByte, l.notices.toByte, l.state.causeByte]
  | none => []

/-- The device notices that a POLL of station `st` collects: all of them for station 0, none for the others. -/
def State.deviceNoticesOf (s : State) (st : Station) : DeviceNotices :=
  if st = 0 then s.deviceNotices else .empty

/-- The state a POLL leaves (R114): the station's lease notices and, for station 0, the device notices are cleared. -/
def State.clearNotices (s : State) (st : Station) : State :=
  { s.mapSlots fun i x =>
      if s.ownedBy st i then { x with lease := x.lease.map fun l => { l with notices := .empty } } else x with
    deviceNotices := if st = 0 then .empty else s.deviceNotices }

/-- The effect of POLL (R114). -/
def pollEffect (st : Station) (s : State) : Answer :=
  if s.detached st then refuse s .notAttached
  else
    accept (s.clearNotices st)
      ((s.deviceNoticesOf st).toByte :: byteOf (s.noticedSlots st).length
        :: (s.noticedSlots st).flatMap s.pollEntry)

/-- POLL (R114). -/
def execPoll (st : Station) (s : State) : Host.Outcome State Fault Refusal :=
  engineTake st (Instr.poll st).requestBytes (pollEffect st) s

/-! ## CONFIG_STATION -/

/-- The state checks of CONFIG_STATION on station `t` (R110 steps 4 and 5). -/
def configStationChecks (t : Station) (cls : Fin 4) (quota : Nat) (s : State) : List (Bool × Status) :=
  [(cls != (s.station t).cls && (s.station t).attached, .inUse),
    (decide (quota < s.usedSlots t), .inUse)]

/-- The effect of CONFIG_STATION (R110, R111). -/
def configStationEffect (st : Station) (station cls quota : Byte) (s : State) : Answer :=
  match firstFailing (s.supervisorChecks st) with
  | some status => refuse s status
  | none =>
    match stationOf? station, indexOf4? cls with
    | some t, some c =>
      if quota.toNat < 1 ∨ 24 < quota.toNat then refuse s .badArg
      else
        match firstFailing (configStationChecks t c quota.toNat s) with
        | some status => refuse s status
        | none => accept (s.setStation t { s.station t with cls := c, quota := quota.toNat }) []
    | _, _ => refuse s .badArg

/-- CONFIG_STATION (R110, R111). -/
def execConfigStation (st : Station) (station cls quota : Byte) (s : State) : Host.Outcome State Fault Refusal :=
  engineTake st (Instr.configStation st station cls quota).requestBytes (configStationEffect st station cls quota) s

end Sys2Proof.Machine
end

