-- ==== Sys2Proof/Machine/Drives.lean ====
section
/-! DEFINITION. The drive of HELD channels (chapter 4): DRIVE, CONFIG_CHANNEL, PULSE_END and FRAME_START. -/

namespace Sys2Proof.Machine

open Sys2Proof

/-! ## Setting a drive record -/

/-- Change what a HELD channel drives, and hand the change to its checker (R83). A channel that is not HELD has no drive
record and is left as it is. -/
def Channel.redrive (f : HeldUse → HeldUse) (c : Channel) : Channel :=
  match c.use with
  | .held u => c.recheck { c with use := .held (f u) }
  | .idle => c
  | .faulted => c

/-- What a DRIVE entry makes of the drive record, the pending PWM change and the pulse (R75, R78, R80). -/
def HeldUse.drives (d : Drive) (u : HeldUse) : HeldUse :=
  match d with
  | .steady v => { u with drive := .steady v, pendingPwm := none, pulse := 0 }
  | .pulse level length => { u with drive := .pulse level length, pendingPwm := none, pulse := length }
  | .pwm duty =>
    match u.drive with
    | .steady _ => { u with pendingPwm := some duty }
    | .pwm present => { u with pendingPwm := if present = duty then none else some duty }
    | .pulse .high _ => { u with drive := .steady .high, pendingPwm := some duty, pulse := 0 }
    | .pulse .low _ => { u with drive := .steady .low, pendingPwm := some duty, pulse := 0 }

/-- Apply one drive setting to its channel. -/
def State.applyDrive (s : State) (n : ChannelNo) (d : Drive) : State :=
  s.setChannel n ((s.channel n).redrive fun u => u.drives d)

/-! ## DRIVE -/

/-- The channel and the drive of an entry, where both are legal (R84 steps 4 and 5). -/
def DriveEntry.setting? (e : DriveEntry) : Option (ChannelNo × Drive) :=
  match channelOf? e.channel, Drive.ofEntry? e.mode e.value with
  | some n, some d => some (n, d)
  | _, _ => none

/-- The argument checks of a DRIVE, in order (R84 steps 1 to 6). -/
def driveArgumentChecks (st : Station) (handle count : Byte) (entries : List DriveEntry) (s : State) :
    List (Bool × Status) :=
  [(s.detached st, .notAttached),
    (decide (count.toNat < 1 ∨ 8 < count.toNat), .badArg),
    ((Handle.ofByte? handle).isNone, .badArg),
    (entries.any fun e => (channelOf? e.channel).isNone, .badArg),
    (entries.any fun e => (Drive.ofEntry? e.mode e.value).isNone, .badArg),
    (decide ¬ (entries.map DriveEntry.channel).Nodup, .duplicate)]

/-- The checks of a DRIVE that need the lease, in order (R84 steps 8 to 11). -/
def driveLeaseChecks (st : Station) (settings : List (ChannelNo × Drive)) (l : Lease) : List (Bool × Status) :=
  [(l.holder != st, .notHolder),
    (l.isPending, .notHeld),
    (l.isLapsed, .lapsed),
    (settings.any fun e => !l.channels.contains e.1, .notInLease)]

/-- The entries applied in list order (R85). -/
def State.applyDrives (s : State) (settings : List (ChannelNo × Drive)) : State :=
  settings.foldl (fun t e => t.applyDrive e.1 e.2) s

/-- The effect of DRIVE (R84, R85). -/
def driveEffect (st : Station) (handle count : Byte) (entries : List DriveEntry) (s : State) : Answer :=
  match firstFailing (driveArgumentChecks st handle count entries s) with
  | some status => refuse s status
  | none =>
    match Handle.ofByte? handle with
    | none => refuse s .badArg
    | some h =>
      match s.lookup h with
      | none => refuse s .stale
      | some l =>
        let settings := entries.filterMap DriveEntry.setting?
        match firstFailing (driveLeaseChecks st settings l) with
        | some status => refuse s status
        | none => accept (s.applyDrives settings) []

/-- DRIVE (R84, R85). -/
def execDrive (st : Station) (handle count : Byte) (entries : List DriveEntry) (s : State) :
    Host.Outcome State Fault Refusal :=
  engineTake st (Instr.drive st handle count entries).requestBytes (driveEffect st handle count entries) s

/-! ## CONFIG_CHANNEL -/

/-- The channel is in use (R86 step 4): HELD, or listed by a PENDING lease. -/
def State.channelInUse (s : State) (n : ChannelNo) : Bool :=
  (s.channel n).isHeld || s.anyLease fun l => l.isPending && l.channels.contains n

/-- The channel with a new configuration, handed to its checker (R87). -/
def Channel.configure (fallback : Steady) (senseCheck : Bool) (minClass : Fin 4) (c : Channel) : Channel :=
  c.recheck { c with fallback := fallback, senseCheck := senseCheck, minClass := minClass }

/-- The effect of CONFIG_CHANNEL (R86, R87). -/
def configChannelEffect (st : Station) (channel config minClass : Byte) (s : State) : Answer :=
  match firstFailing (s.supervisorChecks st) with
  | some status => refuse s status
  | none =>
    match channelOf? channel, configOf? config, indexOf4? minClass with
    | some n, some (fallback, senseCheck), some c =>
      if s.channelInUse n then refuse s .inUse
      else accept (s.setChannel n ((s.channel n).configure fallback senseCheck c)) []
    | _, _, _ => refuse s .badArg

/-- CONFIG_CHANNEL (R86, R87). -/
def execConfigChannel (st : Station) (channel config minClass : Byte) (s : State) :
    Host.Outcome State Fault Refusal :=
  engineTake st (Instr.configChannel st channel config minClass).requestBytes
    (configChannelEffect st channel config minClass) s

/-! ## The end of a pulse -/

/-- The end of a pulse whose remaining stands at 0 (R81): the drive record becomes the opposite steady level. -/
def HeldUse.endPulse (u : HeldUse) : HeldUse :=
  match u.drive, u.pulse with
  | .pulse .high _, 0 => { u with drive := .steady .low }
  | .pulse .low _, 0 => { u with drive := .steady .high }
  | _, _ => u

/-- One lease tick of a channel's pulse (R81): the remaining counts down, and at 0 the pulse ends. -/
def HeldUse.countPulse (u : HeldUse) : HeldUse :=
  if u.pulse = 0 then u else { u with pulse := u.pulse - 1 }.endPulse

/-- PULSE_END (R81): a pulse whose remaining stands at 0 ends. A lease tick ends its own pulses in its own change.
DEDUCED (log entry 4). -/
def execPulseEnd (n : ChannelNo) (s : State) : Host.Outcome State Fault Refusal :=
  .next (if s.resetCtl.active then s else s.setChannel n ((s.channel n).redrive HeldUse.endPulse))

/-! ## FRAME_START -/

/-- A frame start on a HELD channel (R79): a pending PWM change comes into force. -/
def HeldUse.startFrame (u : HeldUse) : HeldUse :=
  match u.pendingPwm with
  | some duty => { u with drive := .pwm duty, pendingPwm := none }
  | none => u

/-- A frame start (R79): the frame begins, and every pending PWM change is applied. -/
def State.startFrame (s : State) : State :=
  { s.mapChannels fun _ c => c.redrive HeldUse.startFrame with frameTime := 0 }

/-- FRAME_START (R79); none is produced while a device reset lasts (R134). -/
def execFrameStart (s : State) : Host.Outcome State Fault Refusal :=
  .next (if s.resetCtl.active then s else s.startFrame)

end Sys2Proof.Machine
end

