-- ==== Sys2Proof/Machine/Clock.lean ====
section
/-! DEFINITION. The lease clock (chapter 7): the lease tick, the qualifying edge, the silence expiry and
CONFIG_CLOCK. -/

namespace Sys2Proof.Machine

open Sys2Proof

/-! ## Periods and divisors -/

/-- The tick period in microseconds by period index (R119). -/
def tickPeriod (index : Fin 8) : Nat :=
  if index = 0 then 1000 else if index = 1 then 2000 else if index = 2 then 5000 else if index = 3 then 10000
  else if index = 4 then 20000 else if index = 5 then 50000 else if index = 6 then 100000 else 200000

/-- Qualifying edges per lease tick by divisor index (R120). -/
def tickDivisor (index : Fin 3) : Nat := if index = 0 then 1 else if index = 1 then 8 else 64

/-- The silence timer as a restart leaves it (R120, R123, R127): running from zero with source EXTERNAL and a silence
limit other than 0, else stopped. -/
def LeaseClock.restartedSilence (c : LeaseClock) : Option Nat :=
  match c.source with
  | .internal => none
  | .external => if c.silenceLimit = 0 then none else some 0

/-! ## The lease tick -/

/-- The countdown of one lease (R48 steps 1 and 2): a HELD lease loses one count, and warns when the count comes down
to its margin. -/
def Lease.countDown (l : Lease) : Lease :=
  if l.isHeld then
    let remaining := l.remaining - 1
    if remaining = l.warnMargin ∧ l.warnMargin ≠ 0 ∧ l.warned = false then
      { l with remaining := remaining, warned := true, notices := { l.notices with warning := true } }
    else { l with remaining := remaining }
  else l

/-- The tick counter advances by one, wrapping (R122). -/
def LeaseClock.advance (c : LeaseClock) : LeaseClock := { c with tickCounter := c.tickCounter + 1 }

/-- The counts of a lease tick (R121): the tick counter, every running pulse (R81) and every HELD lease (R48). -/
def State.countTick (s : State) : State :=
  ({ s with clock := s.clock.advance }.mapChannels fun _ c => c.redrive HeldUse.countPulse).mapSlots fun _ x =>
    { x with lease := x.lease.map Lease.countDown }

/-- A lease tick, whole (R48, R50, R121): its counts, then its expiries, with one grant evaluation after them. -/
def State.leaseTick (s : State) : State := s.countTick.expireDue

/-- The INTERNAL source produces a lease tick (R119): the prescale count begins again from 0. With source EXTERNAL a lease
tick comes only from a qualifying edge (R120), within that edge's own change. -/
def State.internalTick (s : State) : State :=
  match s.clock.source with
  | .internal => State.leaseTick { s with clock := { s.clock with prescale := 0 } }
  | .external => s

/-- LEASE_TICK (R119, R121); none is produced while a device reset lasts (R118, R134). -/
def execLeaseTick (s : State) : Host.Outcome State Fault Refusal :=
  .next (if s.resetCtl.active then s else s.internalTick)

/-! ## The qualifying edge -/

/-- A qualifying edge while the clock is RUNNING (R120): the silence timer restarts, the prescale count rises, and at the
divisor it returns to 0 and a lease tick is produced. -/
def State.countEdge (s : State) : State :=
  let clock := { s.clock with silenceTimer := s.clock.restartedSilence }
  if s.clock.prescale + 1 = tickDivisor s.clock.divisorIndex then
    State.leaseTick { s with clock := { clock with prescale := 0 } }
  else { s with clock := { clock with prescale := s.clock.prescale + 1 } }

/-- The first qualifying edge while the clock is LOST (R124): RUNNING again, the edge not counted, the CLOCK cause
leaving. -/
def State.recoverClock (s : State) : State :=
  State.leaveHold
    { s with
      clock := { s.clock with state := .running, prescale := 0, silenceTimer := s.clock.restartedSilence } }
    .clock

/-- A qualifying edge (R120, R124). -/
def State.takeEdge (s : State) : State :=
  match s.clock.state with
  | .running => s.countEdge
  | .lost => s.recoverClock

/-- The level an edge leaves on its pin. -/
def edgeLevel : Edge → Level
  | .rising => .high
  | .falling => .low

/-- The edge qualifies (R120): source EXTERNAL, and the selected polarity. -/
def LeaseClock.qualifies (c : LeaseClock) (edge : Edge) : Bool := c.source == .external && c.edge == edge

/-- QUALIFYING_EDGE: an edge on TICK. It is taken if it qualifies as the clock then stands and is ignored otherwise (R119,
R120, R128); while a device reset lasts it only moves the pin (R134). DESIGN CHOICE (log entry 10). -/
def execQualifyingEdge (edge : Edge) (s : State) : Host.Outcome State Fault Refusal :=
  let t := { s with tickPin := edgeLevel edge }
  .next (if t.resetCtl.active then t else if t.clock.qualifies edge then t.takeEdge else t)

/-! ## The silence expiry -/

/-- The silence timer expires (R123): the clock is LOST and the CLOCK cause enters. It comes only while the timer runs. -/
def State.silenceExpiry (s : State) : State :=
  match s.clock.silenceTimer with
  | none => s
  | some _ => State.enterHold { s with clock := { s.clock with state := .lost, silenceTimer := none } } .clock

/-- SILENCE_EXPIRY (R123); none comes while a device reset lasts (R134). -/
def execSilenceExpiry (s : State) : Host.Outcome State Fault Refusal :=
  .next (if s.resetCtl.active then s else s.silenceExpiry)

/-! ## CONFIG_CLOCK -/

/-- Some lease is HELD or PENDING (R126 step 4). -/
def State.anyInForce (s : State) : Bool := s.anyLease fun l => l.isHeld || l.isPending

/-- The argument checks of CONFIG_CLOCK (R126 step 3). -/
def configClockBadArg (sourceEdge rate silence frame settle : Byte) : Bool :=
  decide (4 ≤ sourceEdge.toNat)
    || (match clockSourceOf sourceEdge with
      | .internal => decide (8 ≤ rate.toNat) || decide (silence.toNat ≠ 0)
      | .external => decide (3 ≤ rate.toNat))
    || decide (4 ≤ frame.toNat)
    || decide (settle.toNat < 1 ∨ 15 < settle.toNat)

/-- The checks of CONFIG_CLOCK, in order (R126). -/
def configClockChecks (st : Station) (sourceEdge rate silence frame settle : Byte) (s : State) :
    List (Bool × Status) :=
  s.supervisorChecks st ++ [(configClockBadArg sourceEdge rate silence frame settle, .badArg), (s.anyInForce, .inUse)]

/-- The clock's settings as CONFIG_CLOCK gives them (R127 steps 1, 2, 4 and 5), with the prescale count at 0 and the silence
timer restarted or stopped. -/
def LeaseClock.configure (sourceEdge rate silence frame settle : Byte) (c : LeaseClock) : LeaseClock :=
  let source := clockSourceOf sourceEdge
  let set : LeaseClock :=
    { c with
      source := source,
      periodIndex := if source = .internal then Fin.ofNat 8 rate.toNat else c.periodIndex,
      divisorIndex := if source = .external then Fin.ofNat 3 rate.toNat else c.divisorIndex,
      edge := clockEdgeOf sourceEdge,
      silenceLimit := silence.toNat,
      prescale := 0,
      state := .running,
      frameIndex := Fin.ofNat 4 frame.toNat,
      settleMs := settle.toNat }
  { set with silenceTimer := set.restartedSilence }

/-- A checker in SETTLING, WATCHING or MISMATCH restarts its settle (R101); the others keep their phases. -/
def Channel.restartSettle (c : Channel) : Channel :=
  match c.phase with
  | .settling => c.settle
  | .watching => c.settle
  | .mismatch => c.settle
  | .inactive => c
  | .suspended => c
  | .stopped => c

/-- The change of an accepted CONFIG_CLOCK (R127): the settings, the CLOCK cause leaving if the clock was LOST, a frame
start of the PWM timebase, and the checkers' restart. -/
def State.configureClock (s : State) (sourceEdge rate silence frame settle : Byte) : State :=
  let set := { s with clock := s.clock.configure sourceEdge rate silence frame settle }
  let held := if s.clock.state = .lost then set.leaveHold .clock else set
  held.startFrame.mapChannels fun _ c => c.restartSettle

/-- The effect of CONFIG_CLOCK (R126, R127). -/
def configClockEffect (st : Station) (sourceEdge rate silence frame settle : Byte) (s : State) : Answer :=
  match firstFailing (configClockChecks st sourceEdge rate silence frame settle s) with
  | some status => refuse s status
  | none => accept (s.configureClock sourceEdge rate silence frame settle) []

/-- CONFIG_CLOCK (R126, R127). -/
def execConfigClock (st : Station) (sourceEdge rate silence frame settle : Byte) (s : State) :
    Host.Outcome State Fault Refusal :=
  engineTake st (Instr.configClock st sourceEdge rate silence frame settle).requestBytes
    (configClockEffect st sourceEdge rate silence frame settle) s

end Sys2Proof.Machine
end

