-- ==== Sys2Proof/Machine/Leases.lean ====
section
/-! DEFINITION. RENEW, RENEW_ALL, RELEASE and REVOKE, and the expiry of leases (chapter 3). -/

namespace Sys2Proof.Machine

open Sys2Proof

/-- The slot a handle names, alone. -/
def onlySlot (h : Handle) : SlotNo → Bool := fun i => i == h.slot

/-! ## RENEW -/

/-- Renew the lease in slot `i` (R55). -/
def State.renewSlot (s : State) (i : SlotNo) (newTerm : Nat) : State :=
  s.setSlot i { s.slot i with lease := (s.leaseAt i).map (Lease.renew s.clock.tickCounter newTerm) }

/-- The checks of RENEW that need the lease, in order (R54 steps 4 to 7). -/
def renewChecks (st : Station) (newTerm : Word) (l : Lease) : List (Bool × Status) :=
  [(l.holder != st, .notHolder),
    (l.isPending, .notHeld),
    (l.isLapsed, .lapsed),
    (decide (newTerm.toNat ≠ 0) && decide (newTerm.toNat ≤ l.warnMargin), .badArg)]

/-- The effect of RENEW (R54, R55). -/
def renewEffect (st : Station) (handle : Byte) (newTerm : Word) (s : State) : Answer :=
  if s.detached st then refuse s .notAttached
  else
    match Handle.ofByte? handle with
    | none => refuse s .badArg
    | some h =>
      match s.lookup h with
      | none => refuse s .stale
      | some l =>
        match firstFailing (renewChecks st newTerm l) with
        | some status => refuse s status
        | none =>
          accept (s.renewSlot h.slot newTerm.toNat) (twoBytes (l.renew s.clock.tickCounter newTerm.toNat).term)

/-- RENEW (R54, R55). -/
def execRenew (st : Station) (handle : Byte) (newTerm : Word) (s : State) : Host.Outcome State Fault Refusal :=
  engineTake st (Instr.renew st handle newTerm).requestBytes (renewEffect st handle newTerm) s

/-! ## RENEW_ALL -/

/-- A HELD lease of the station. -/
def heldBy (st : Station) (l : Lease) : Bool := l.holder == st && l.isHeld

/-- Renew every HELD lease of the station with its present term (R56). -/
def State.renewAll (s : State) (st : Station) : State :=
  s.mapSlots fun i x =>
    if s.slotHas (heldBy st) i then { x with lease := x.lease.map (Lease.renew s.clock.tickCounter 0) } else x

/-- The effect of RENEW_ALL (R56). -/
def renewAllEffect (st : Station) (s : State) : Answer :=
  if s.detached st then refuse s .notAttached
  else accept (s.renewAll st) [byteOf (s.countLeases (heldBy st))]

/-- RENEW_ALL (R56). -/
def execRenewAll (st : Station) (s : State) : Host.Outcome State Fault Refusal :=
  engineTake st (Instr.renewAll st).requestBytes (renewAllEffect st) s

/-! ## RELEASE -/

/-- Free the lease in a slot, and run grant evaluation if it was HELD or PENDING (R58, R59, R60). -/
def State.release (s : State) (h : Handle) : State := (s.free (onlySlot h)).evaluateIf (s.anyActive (onlySlot h))

/-- The effect of RELEASE (R57 to R60). -/
def releaseEffect (st : Station) (handle : Byte) (s : State) : Answer :=
  if s.detached st then refuse s .notAttached
  else
    match Handle.ofByte? handle with
    | none => refuse s .badArg
    | some h =>
      match s.lookup h with
      | none => refuse s .stale
      | some l => if l.holder = st then accept (s.release h) [] else refuse s .notHolder

/-- RELEASE (R57 to R60). -/
def execRelease (st : Station) (handle : Byte) (s : State) : Host.Outcome State Fault Refusal :=
  engineTake st (Instr.release st handle).requestBytes (releaseEffect st handle) s

/-! ## REVOKE -/

/-- The effect of REVOKE (R61 to R63): a HELD or PENDING lease lapses with cause REVOKED, and evaluation runs. -/
def revokeEffect (st : Station) (handle : Byte) (s : State) : Answer :=
  match firstFailing (s.supervisorChecks st) with
  | some status => refuse s status
  | none =>
    match Handle.ofByte? handle with
    | none => refuse s .badArg
    | some h =>
      match s.lookup h with
      | none => refuse s .stale
      | some l =>
        if l.isLapsed then refuse s .lapsed
        else accept (s.lapse (onlySlot h) .revoked).grantEvaluation []

/-- REVOKE (R61 to R63). -/
def execRevoke (st : Station) (handle : Byte) (s : State) : Host.Outcome State Fault Refusal :=
  engineTake st (Instr.revoke st handle).requestBytes (revokeEffect st handle) s

/-! ## LEASE_EXPIRY -/

/-- LEASE_EXPIRY (R50, R53): every HELD lease whose remaining stands at 0 lapses with cause EXPIRED, and grant
evaluation runs once. A lease tick makes its own expiries in its own change (R48, R50). DEDUCED (log entry 4). -/
def execLeaseExpiry (s : State) : Host.Outcome State Fault Refusal :=
  .next (if s.resetCtl.active then s else s.expireDue)

end Sys2Proof.Machine
end

