-- ==== Sys2Proof/Machine/Sense.lean ====
section
/-! DEFINITION. Sense checking and channel faults (chapter 5): SENSE_CHANGE, SETTLE_END, SENSE_FAULT and
CLEAR_FAULT. -/

namespace Sys2Proof.Machine

open Sys2Proof

/-! ## The checker's comparisons -/

/-- The sense level differs from the checked level (R91). An UNCHECKED level has nothing to differ from. -/
def Channel.disagrees (c : Channel) : Bool :=
  match c.checkedLevel with
  | some level => c.senseLevel != level
  | none => false

/-- The end of the settle window (R93): WATCHING on agreement, else MISMATCH with its timer started. -/
def Channel.settleEnds (c : Channel) : Channel :=
  match c.phase with
  | .settling => if c.disagrees then c.mismatched else c.rest .watching
  | .inactive => c
  | .suspended => c
  | .watching => c
  | .mismatch => c
  | .stopped => c

/-- The checker sees the sense level that now stands (R94): a mismatch moves WATCHING to MISMATCH, agreement moves
MISMATCH to WATCHING; the other phases do not compare. -/
def Channel.compare (c : Channel) : Channel :=
  match c.phase with
  | .watching => if c.disagrees then c.mismatched else c
  | .mismatch => if c.disagrees then c else c.rest .watching
  | .inactive => c
  | .suspended => c
  | .settling => c
  | .stopped => c

/-- The sense input of a channel comes to a level. -/
def Channel.sense (level : Level) (c : Channel) : Channel := { c with senseLevel := level }

/-! ## The events -/

/-- SENSE_CHANGE (R91, R94): the latest sample of the sense input is `level`. While a device reset lasts the input
stands as it does and nothing compares it (R134). DESIGN CHOICE (log entry 11). -/
def execSenseChange (n : ChannelNo) (level : Level) (s : State) : Host.Outcome State Fault Refusal :=
  .next
    (if s.resetCtl.active then s.setChannel n ((s.channel n).sense level)
     else s.setChannel n ((s.channel n).sense level).compare)

/-- The settle timer of channel `n` ends (R93). -/
def State.settleEnd (s : State) (n : ChannelNo) : State := s.setChannel n (s.channel n).settleEnds

/-- SETTLE_END (R93): it comes only in SETTLING, and not while a device reset lasts. -/
def execSettleEnd (n : ChannelNo) (s : State) : Host.Outcome State Fault Refusal :=
  .next (if s.resetCtl.active then s else s.settleEnd n)

/-- A sense fault is taken on channel `n` (R95, R96): the channel becomes FAULTED and FAULT is raised; a lease that held
it lapses with cause FAULT, and grant evaluation then runs. -/
def State.takeFault (s : State) (n : ChannelNo) : State :=
  match (s.channel n).use with
  | .held u =>
    (((s.setChannel n (s.channel n).fault).lapse (fun i => i == u.lease.slot) .fault).raiseFault).grantEvaluation
  | .idle => (s.setChannel n (s.channel n).fault).raiseFault
  | .faulted => s

/-- The mismatch timer of channel `n` ends (R94): the fault arrives only where the checker is in MISMATCH. -/
def State.senseFault (s : State) (n : ChannelNo) : State :=
  if (s.channel n).phase = .mismatch then s.takeFault n else s

/-- SENSE_FAULT (R94 to R96); none arrives while a device reset lasts (R134). -/
def execSenseFault (n : ChannelNo) (s : State) : Host.Outcome State Fault Refusal :=
  .next (if s.resetCtl.active then s else s.senseFault n)

/-! ## CLEAR_FAULT -/

/-- A fault is cleared (R98): the channel becomes IDLE, its checker starts afresh, and grant evaluation runs. -/
def State.clearFault (s : State) (n : ChannelNo) : State :=
  if (s.channel n).isFaulted then (s.setChannel n (s.channel n).toFallback).grantEvaluation else s

/-- The effect of CLEAR_FAULT (R98). -/
def clearFaultEffect (st : Station) (channel : Byte) (s : State) : Answer :=
  match firstFailing (s.supervisorChecks st) with
  | some status => refuse s status
  | none =>
    match channelOf? channel with
    | none => refuse s .badArg
    | some n => accept (s.clearFault n) []

/-- CLEAR_FAULT (R98). -/
def execClearFault (st : Station) (channel : Byte) (s : State) : Host.Outcome State Fault Refusal :=
  engineTake st (Instr.clearFault st channel).requestBytes (clearFaultEffect st channel) s

end Sys2Proof.Machine
end

