-- ==== Sys2Proof/Machine/Resets.lean ====
section
/-! DEFINITION. Device resets (chapter 8) and RESTART (chapter 10): DEVICE_RESET, LAST_RESET_CONDITION_CLEARS, RESET_END
and RESTART, with the supply voltage and the levels it is compared with. -/

namespace Sys2Proof.Machine

open Sys2Proof

/-! ## Levels of the supply, in millivolts -/

/-- The brownout level, 2.70 V (R134). -/
def brownoutLevel : Nat := 2700

/-- The level above which the supply condition of a reset clears, 2.80 V (R134, R170). -/
def resetReleaseLevel : Nat := 2800

/-- The power-on level, 1.80 V (R134). -/
def powerOnLevel : Nat := 1800

/-- The threshold VT by index (R129). -/
def thresholdOf (index : Fin 4) : Nat :=
  if index = 0 then 2950 else if index = 1 then 3050 else if index = 2 then 3100 else 3150

/-- The rise level, VT + 50 mV (R129). -/
def riseLevelOf (index : Fin 4) : Nat := thresholdOf index + 50

/-! ## The conditions of a device reset -/

/-- The supply, as it bears on a device reset (R134, R135): below 2.70 V its condition holds and is recorded; below 2.80 V it holds
too once the supply has fallen below 2.70 V in this reset; above 2.80 V it has cleared. At 2.80 V exactly, and with no such fall, it
stands as it was. DEDUCED (log entry 7). -/
def ResetControl.seeSupply (mv : Nat) (r : ResetControl) : ResetControl :=
  { r with
    active := r.active || decide (mv < brownoutLevel),
    supplyHeld :=
      if mv < brownoutLevel then true
      else if resetReleaseLevel < mv then false
      else r.supplyHeld || (decide (mv < resetReleaseLevel) && (r.metBrownout || r.metPower)),
    metBrownout := r.metBrownout || decide (mv < brownoutLevel),
    metPower := r.metPower || decide (mv < powerOnLevel) }

/-- The 2 ms count (R134): stopped while a condition lasts, and begun when the last one has cleared. -/
def ResetControl.settleRelease (rst : Level) (r : ResetControl) : ResetControl :=
  if !r.active then { r with release := none }
  else if r.supplyHeld || rst == .low then { r with release := none }
  else { r with release := some (r.release.getD 0) }

/-- The supply comes to `mv`, as far as device resets are concerned. -/
def State.supplyOnReset (s : State) (mv : Nat) : State :=
  { s with vdd := mv, resetCtl := (s.resetCtl.seeSupply mv).settleRelease s.rstPin }

/-- RST# has been low for 2 µs: a device reset begins, or is held once more (R134). DESIGN CHOICE (log entry 9). -/
def State.pullReset (s : State) : State :=
  { s with rstPin := .low, resetCtl := { s.resetCtl with active := true }.settleRelease .low }

/-- RST# goes high (R134). -/
def State.releaseReset (s : State) : State :=
  { s with rstPin := .high, resetCtl := s.resetCtl.settleRelease .high }

/-! ## The end of a device reset -/

/-- The reset cause recorded at the end of the reset (R135). -/
def ResetControl.cause (r : ResetControl) : ResetCause :=
  if r.metPower then .power else if r.metBrownout then .brownout else .pin

/-- The supply monitor at the end of a device reset (R136): RECOVERING with the supply above the rise level, else LOW. -/
def SupplyMonitor.afterReset (mv : Nat) : SupplyMonitor :=
  if riseLevelOf 0 < mv then ⟨.recovering, 0, some 0, none⟩ else ⟨.low, 0, none, none⟩

/-- The whole part at the end of a device reset (R136): every block at its reset values, the supply state chosen from the
supply, the cause recorded. The input pins and the supply stand as they are outside the part, and the commands still wait.
DESIGN CHOICE (log entry 14): the records take their reset values here and not before. -/
def State.endReset (s : State) : State :=
  { State.reset with
    channels := Vector.ofFn fun n => Channel.afterReset (s.channel n).senseLevel,
    supply := SupplyMonitor.afterReset s.vdd,
    lastReset := s.resetCtl.cause,
    vdd := s.vdd,
    rstPin := s.rstPin,
    tickPin := s.tickPin,
    choices := s.choices,
    pending := s.pending }

/-- RESET_END (R134 to R136): it comes 2 ms after the last condition has cleared, and not before. -/
def execResetEnd (s : State) : Host.Outcome State Fault Refusal :=
  .next
    (match s.resetCtl.release with
    | some _ => s.endReset
    | none => s)

/-! ## RESTART -/

/-- The change of RESTART (R161): every slot freed with no evaluation, every station detached, the device notices cleared and
the restart count raised, saturating at 255. -/
def State.restart (s : State) : State :=
  { (s.free fun _ => true).mapStations fun _ r => { r with attached := false, mask := .empty } with
    deviceNotices := .empty, restartCount := min 255 (s.restartCount + 1) }

/-- The effect of RESTART (R160, R161). -/
def restartEffect (st : Station) (s : State) : Answer :=
  match firstFailing (s.supervisorChecks st) with
  | some status => refuse s status
  | none => accept s.restart [byteOf s.restart.restartCount]

/-- RESTART (R161). -/
def execRestart (st : Station) (s : State) : Host.Outcome State Fault Refusal :=
  engineTake st (Instr.restart st).requestBytes (restartEffect st) s

end Sys2Proof.Machine
end

