-- ==== Sys2Proof/Machine/Supply.lean ====
section
/-! DEFINITION. The supply monitor (chapter 8): the movements of the supply, the supply-low event, the rise, the recovery
expiry and CONFIG_SUPPLY, and the two reset events that a movement of the supply can bring. -/

namespace Sys2Proof.Machine

open Sys2Proof

/-! ## The monitor's levels -/

/-- The threshold voltage VT in force (R129). -/
def SupplyMonitor.vt (m : SupplyMonitor) : Nat := thresholdOf m.threshold

/-- The rise level in force (R129). -/
def SupplyMonitor.riseLevel (m : SupplyMonitor) : Nat := riseLevelOf m.threshold

/-! ## The events of the monitor -/

/-- The filter sees the supply move from `old` to `new` (R130): started by a fall below VT, cancelled at VT or above. -/
def SupplyMonitor.filterSees (old new : Nat) (m : SupplyMonitor) : SupplyMonitor :=
  if m.vt ≤ new then { m with filter := none }
  else if m.vt ≤ old then { m with filter := some 0 }
  else m

/-- A rise (R131): LOW becomes RECOVERING with the recovery timer started; the other states take no effect. -/
def SupplyMonitor.rise (m : SupplyMonitor) : SupplyMonitor :=
  match m.state with
  | .low => { m with state := .recovering, recoveryTimer := some 0 }
  | .normal => m
  | .recovering => m

/-- The supply-low event (R131): the filter stops. NORMAL becomes LOW and the SUPPLY cause enters; RECOVERING becomes LOW with
its timer cancelled; LOW takes no effect. It comes only from a running filter (R130). -/
def State.supplyLow (s : State) : State :=
  match s.supply.filter with
  | none => s
  | some _ =>
    let low : SupplyMonitor := { s.supply with state := .low, recoveryTimer := none, filter := none }
    match s.supply.state with
    | .normal => State.enterHold { s with supply := low } .supply
    | .recovering => { s with supply := low }
    | .low => { s with supply := low }

/-- The recovery timer expires (R131): RECOVERING becomes NORMAL and the SUPPLY cause leaves. It does not occur in the other
states. -/
def State.recoveryExpiry (s : State) : State :=
  match s.supply.state with
  | .recovering =>
    State.leaveHold { s with supply := { s.supply with state := .normal, recoveryTimer := none } } .supply
  | .normal => s
  | .low => s

/-! ## Movements of the supply -/

/-- The supply comes to `mv`. While a device reset lasts, or below the brownout level, only the reset takes note of it
(R134). Otherwise the filter sees it (R130), and a crossing of the rise level is a rise (R129). DESIGN CHOICE (log entry 6): one
operation for every movement. -/
def State.supplyTo (s : State) (mv : Nat) : State :=
  let t := s.supplyOnReset mv
  if t.resetCtl.active then t
  else
    let seen := t.supply.filterSees s.vdd mv
    { t with supply := if s.vdd ≤ seen.riseLevel ∧ seen.riseLevel < mv then seen.rise else seen }

/-- SUPPLY_BELOW_VT (R130): the supply comes to a level below VT, and the filter starts. -/
def execSupplyBelowVt (mv : Nat) (s : State) : Host.Outcome State Fault Refusal := .next (s.supplyTo mv)

/-- SUPPLY_ABOVE_VT (R130): the supply comes to a level at VT or above, and a running filter is cancelled. -/
def execSupplyAboveVt (mv : Nat) (s : State) : Host.Outcome State Fault Refusal := .next (s.supplyTo mv)

/-- SUPPLY_LOW_EVENT (R130, R131); none is produced while a device reset lasts (R134). -/
def execSupplyLowEvent (s : State) : Host.Outcome State Fault Refusal :=
  .next (if s.resetCtl.active then s else s.supplyLow)

/-- SUPPLY_RISE (R129, R131): the supply comes to a level above the rise level, and the rise is taken. -/
def execSupplyRise (mv : Nat) (s : State) : Host.Outcome State Fault Refusal :=
  let t := s.supplyTo mv
  .next
    (if !t.resetCtl.active && decide (t.supply.riseLevel < mv) then { t with supply := t.supply.rise } else t)

/-- RECOVERY_EXPIRY (R131); none is produced while a device reset lasts (R134). -/
def execRecoveryExpiry (s : State) : Host.Outcome State Fault Refusal :=
  .next (if s.resetCtl.active then s else s.recoveryExpiry)

/-! ## The conditions of a device reset -/

/-- DEVICE_RESET (R134): a condition of a device reset arises. -/
def execDeviceReset (condition : ResetCondition) (s : State) : Host.Outcome State Fault Refusal :=
  match condition with
  | .supply mv => .next (s.supplyTo mv)
  | .pin => .next s.pullReset

/-- LAST_RESET_CONDITION_CLEARS (R134): a condition clears, and if none remains the 2 ms begin. -/
def execLastResetConditionClears (condition : ResetCondition) (s : State) : Host.Outcome State Fault Refusal :=
  match condition with
  | .supply mv => .next (s.supplyTo mv)
  | .pin => .next s.releaseReset

/-! ## CONFIG_SUPPLY -/

/-- The monitor judges the supply `mv` against a new threshold (R130, R133): at the new VT or above the filter is cancelled;
below it a running filter runs on, and one that is not running starts unless the supply already stood below the old VT in
LOW; in LOW, a supply above the new rise level is a rise at once. DEDUCED (log entry 8). -/
def SupplyMonitor.configure (mv : Nat) (index : Fin 4) (m : SupplyMonitor) : SupplyMonitor :=
  let set := { m with threshold := index }
  let filter :=
    if set.vt ≤ mv then none
    else
      match m.filter with
      | some t => some t
      | none => if m.vt ≤ mv ∨ m.state ≠ .low then some 0 else none
  let judged := { set with filter := filter }
  if judged.riseLevel < mv then judged.rise else judged

/-- The effect of CONFIG_SUPPLY (R133). -/
def configSupplyEffect (st : Station) (index : Byte) (s : State) : Answer :=
  match firstFailing (s.supervisorChecks st) with
  | some status => refuse s status
  | none =>
    match indexOf4? index with
    | none => refuse s .badArg
    | some i => accept { s with supply := s.supply.configure s.vdd i } []

/-- CONFIG_SUPPLY (R133). -/
def execConfigSupply (st : Station) (index : Byte) (s : State) : Host.Outcome State Fault Refusal :=
  engineTake st (Instr.configSupply st index).requestBytes (configSupplyEffect st index) s

end Sys2Proof.Machine
end

