-- ==== Sys2Proof/Machine/Time.lean ====
section
/-! DEFINITION. The passing of one microsecond: every running timer advances, and the events that come due are taken, in
an order the manual leaves open (log entries 3 and 5). -/

namespace Sys2Proof.Machine

open Sys2Proof

/-! ## The timers advance -/

/-- A timer one microsecond on; one that does not run stays so. -/
def advanceTimer (t : Option Nat) : Option Nat := t.map (· + 1)

/-- The timers of a sense checker one microsecond on (R91). -/
def Channel.advance (c : Channel) : Channel :=
  { c with settleTimer := advanceTimer c.settleTimer, mismatchTimer := advanceTimer c.mismatchTimer }

/-- The lease clock one microsecond on (R119, R123): with source INTERNAL the prescale count is time. -/
def LeaseClock.passTime (c : LeaseClock) : LeaseClock :=
  { c with
    prescale := if c.source = .internal then c.prescale + 1 else c.prescale,
    silenceTimer := advanceTimer c.silenceTimer }

/-- The supply monitor's timers one microsecond on (R129, R130). -/
def SupplyMonitor.advance (m : SupplyMonitor) : SupplyMonitor :=
  { m with recoveryTimer := advanceTimer m.recoveryTimer, filter := advanceTimer m.filter }

/-- Every running timer of the part one microsecond on. While a device reset lasts only its own 2 ms are counted
(R134). -/
def State.advanceTimers (s : State) : State :=
  if s.resetCtl.active then
    { s with resetCtl := { s.resetCtl with release := advanceTimer s.resetCtl.release } }
  else
    { s.mapChannels fun _ c => c.advance with
      clock := s.clock.passTime, frameTime := s.frameTime + 1, supply := s.supply.advance }

/-! ## The events that time brings -/

/-- The events that come of time alone. -/
inductive Due where
  | leaseTick
  | silenceExpiry
  | frameStart
  | supplyLow
  | recoveryExpiry
  | settleEnd (n : ChannelNo)
  | senseFault (n : ChannelNo)
  | resetEnd
deriving DecidableEq, Repr

/-- A timer has run for at least `limit` microseconds. -/
def reached (t : Option Nat) (limit : Nat) : Bool :=
  match t with
  | some elapsed => decide (limit ≤ elapsed)
  | none => false

/-- The settle window S in microseconds (R91). -/
def State.settleWindow (s : State) : Nat := s.clock.settleMs * 1000

/-- The end of the windows of channel `n`, if one is reached (R93, R94). -/
def State.dueOf (s : State) (n : ChannelNo) : List Due :=
  (if reached (s.channel n).settleTimer s.settleWindow then [.settleEnd n] else [])
    ++ if reached (s.channel n).mismatchTimer s.settleWindow then [.senseFault n] else []

/-- The events that are due (R119, R123, R76, R130, R131, R93, R94); while a device reset lasts, its end alone (R134). -/
def State.due (s : State) : List Due :=
  if s.resetCtl.active then (if reached s.resetCtl.release 2000 then [.resetEnd] else [])
  else
    (if s.clock.source = .internal ∧ tickPeriod s.clock.periodIndex ≤ s.clock.prescale then [.leaseTick] else [])
      ++ (if reached s.clock.silenceTimer (s.clock.silenceLimit * 10000) then [.silenceExpiry] else [])
      ++ (if framePeriod s.clock.frameIndex ≤ s.frameTime then [.frameStart] else [])
      ++ (if reached s.supply.filter 50 then [.supplyLow] else [])
      ++ (if reached s.supply.recoveryTimer 20000 then [.recoveryExpiry] else [])
      ++ (List.finRange 32).flatMap s.dueOf

/-- What a due event does: the event of its own row. -/
def Due.take (d : Due) (s : State) : State :=
  match d with
  | .leaseTick => s.internalTick
  | .silenceExpiry => s.silenceExpiry
  | .frameStart => s.startFrame
  | .supplyLow => s.supplyLow
  | .recoveryExpiry => s.recoveryExpiry
  | .settleEnd n => s.settleEnd n
  | .senseFault n => s.senseFault n
  | .resetEnd => s.endReset

/-- Take the due events one by one, judging what is due afresh after each, so that an event cancelled by the one before it
does not come (R99, R100). Where several are due, the free value says which is next. The first argument bounds how many are
taken. -/
def takeDue : Nat → State → State
  | 0, s => s
  | bound + 1, s =>
    match s.due with
    | [] => s
    | [d] => takeDue bound (d.take s)
    | d :: e :: rest =>
      takeDue bound
        (((d :: e :: rest)[Config.dueOrder s.choices % (rest.length + 2)]?.getD d).take
          { s with choices := s.choices + 1 })

/-- At most this many events come due in one microsecond: five of the part and two of each channel. -/
def mostDue : Nat := 69

/-- One microsecond passes. -/
def State.passMicrosecond (s : State) : State := takeDue mostDue s.advanceTimers

end Sys2Proof.Machine
end

