-- ==== Sys2Proof/Machine/Dispatch.lean ====
section
/-! DEFINITION. The effect of each command: one arm per row of the table. -/

namespace Sys2Proof.Machine

open Sys2Proof

def exec (i : Instr) (s : State) : Host.Outcome State Fault Refusal :=
  match i with
  | .readStatus st => Sys2Proof.Machine.execReadStatus st s
  | .queryChannel st channel => Sys2Proof.Machine.execQueryChannel st channel s
  | .queryLease st handle => Sys2Proof.Machine.execQueryLease st handle s
  | .listLeases st station => Sys2Proof.Machine.execListLeases st station s
  | .attach st => Sys2Proof.Machine.execAttach st s
  | .detach st => Sys2Proof.Machine.execDetach st s
  | .setMask st mask => Sys2Proof.Machine.execSetMask st mask s
  | .poll st => Sys2Proof.Machine.execPoll st s
  | .claim st options term warnMargin count channels => Sys2Proof.Machine.execClaim st options term warnMargin count channels s
  | .renew st handle newTerm => Sys2Proof.Machine.execRenew st handle newTerm s
  | .renewAll st => Sys2Proof.Machine.execRenewAll st s
  | .drive st handle count entries => Sys2Proof.Machine.execDrive st handle count entries s
  | .release st handle => Sys2Proof.Machine.execRelease st handle s
  | .configChannel st channel config minClass => Sys2Proof.Machine.execConfigChannel st channel config minClass s
  | .configStation st station cls quota => Sys2Proof.Machine.execConfigStation st station cls quota s
  | .configClock st sourceEdge rate silence frame settle => Sys2Proof.Machine.execConfigClock st sourceEdge rate silence frame settle s
  | .configSupply st index => Sys2Proof.Machine.execConfigSupply st index s
  | .clearFault st channel => Sys2Proof.Machine.execClearFault st channel s
  | .revoke st handle => Sys2Proof.Machine.execRevoke st handle s
  | .restart st => Sys2Proof.Machine.execRestart st s
  | .commandByte port code => Sys2Proof.Machine.execCommandByte port code s
  | .dataByte port byte => Sys2Proof.Machine.execDataByte port byte s
  | .unknownCommandByte port byte => Sys2Proof.Machine.execUnknownCommandByte port byte s
  | .abort port => Sys2Proof.Machine.execAbort port s
  | .replay port => Sys2Proof.Machine.execReplay port s
  | .statusRead port => Sys2Proof.Machine.execStatusRead port s
  | .dataRead port => Sys2Proof.Machine.execDataRead port s
  | .leaseTick => Sys2Proof.Machine.execLeaseTick s
  | .leaseExpiry => Sys2Proof.Machine.execLeaseExpiry s
  | .pulseEnd channel => Sys2Proof.Machine.execPulseEnd channel s
  | .frameStart => Sys2Proof.Machine.execFrameStart s
  | .senseChange channel level => Sys2Proof.Machine.execSenseChange channel level s
  | .settleEnd channel => Sys2Proof.Machine.execSettleEnd channel s
  | .senseFault channel => Sys2Proof.Machine.execSenseFault channel s
  | .qualifyingEdge edge => Sys2Proof.Machine.execQualifyingEdge edge s
  | .silenceExpiry => Sys2Proof.Machine.execSilenceExpiry s
  | .supplyBelowVt millivolts => Sys2Proof.Machine.execSupplyBelowVt millivolts s
  | .supplyAboveVt millivolts => Sys2Proof.Machine.execSupplyAboveVt millivolts s
  | .supplyLowEvent => Sys2Proof.Machine.execSupplyLowEvent s
  | .supplyRise millivolts => Sys2Proof.Machine.execSupplyRise millivolts s
  | .recoveryExpiry => Sys2Proof.Machine.execRecoveryExpiry s
  | .deviceReset condition => Sys2Proof.Machine.execDeviceReset condition s
  | .resetEnd => Sys2Proof.Machine.execResetEnd s
  | .lastResetConditionClears condition => Sys2Proof.Machine.execLastResetConditionClears condition s

end Sys2Proof.Machine
end

