-- ==== Sys2Proof/Machine/Idle.lean ====
section
/-! DEFINITION. What the part does of itself while no command waits: the engine takes the next waiting request, and where
none waits one microsecond passes. -/

namespace Sys2Proof.Machine

open Sys2Proof

/-- The part left to itself. DESIGN CHOICE (log entry 5): the engine is free, so it takes the arbiter's choice (R156); with no port QUEUED one
microsecond passes. -/
def State.idle (s : State) : Host.Outcome State Fault Refusal :=
  match s.nextTake with
  | some request => exec request s
  | none => .next s.passMicrosecond

end Sys2Proof.Machine
end

