-- ==== Sys2Proof/WellFormed.lean ====
section
/-! DEFINITION. Which commands are well formed: the operand lists have the length their count byte announces, an
unknown command byte names nothing, and a supply event carries a voltage the event can have. -/

namespace Sys2Proof

/-- A command whose operands are those its row can have. Values that a request's own checks refuse (R164) are well
formed: the request is refused, not the command. -/
def Instr.wellFormed : Instr → Bool
  | .claim _ _ _ _ count channels => channels.length == announced count
  | .drive _ _ count entries => entries.length == announced count
  | .unknownCommandByte _ byte =>
    (RequestCode.ofByte? byte).isNone && byte != abortByte && byte != replayByte
  | .supplyBelowVt mv => decide (mv < 3150)
  | .supplyAboveVt mv => decide (2950 ≤ mv)
  | .supplyRise mv => decide (3000 < mv)
  | .deviceReset (.supply mv) => decide (mv < 2700)
  | .deviceReset .pin => true
  | .lastResetConditionClears (.supply mv) => decide (2800 < mv)
  | .lastResetConditionClears .pin => true
  | .readStatus _ => true
  | .queryChannel _ _ => true
  | .queryLease _ _ => true
  | .listLeases _ _ => true
  | .attach _ => true
  | .detach _ => true
  | .setMask _ _ => true
  | .poll _ => true
  | .renew _ _ _ => true
  | .renewAll _ => true
  | .release _ _ => true
  | .configChannel _ _ _ _ => true
  | .configStation _ _ _ _ => true
  | .configClock _ _ _ _ _ _ => true
  | .configSupply _ _ => true
  | .clearFault _ _ => true
  | .revoke _ _ => true
  | .restart _ => true
  | .commandByte _ _ => true
  | .dataByte _ _ => true
  | .abort _ => true
  | .replay _ => true
  | .statusRead _ => true
  | .dataRead _ => true
  | .leaseTick => true
  | .leaseExpiry => true
  | .pulseEnd _ => true
  | .frameStart => true
  | .senseChange _ _ => true
  | .settleEnd _ => true
  | .senseFault _ => true
  | .qualifyingEdge _ => true
  | .silenceExpiry => true
  | .supplyLowEvent => true
  | .recoveryExpiry => true
  | .resetEnd => true

end Sys2Proof
end

