-- ==== Sys2Proof/Safety.lean ====
section
/-! DEFINITION. What a sound state of the LX32 is: the laws the manual states of its records, each as a decidable
proposition of the state, and their conjunction. Then the terms that claims about a change are stated in: what the change
leaves as it was, how a request completes, what a lapse, a freeing and a grant leave, and what time brings. -/

namespace Sys2Proof.Machine

open Sys2Proof

/-! ## Leases -/

/-- The lapse cause of a LAPSED lease, absent in the other states (R2). -/
def Lease.lapseCause? (l : Lease) : Option LapseCause :=
  match l.state with
  | .lapsed cause => some cause
  | .pending => none
  | .held => none

/-- The laws of one lease record (R2, R3, R53, R63): 1 to 8 distinct channels, a term of 1 to 65535 above the warn margin, and
a remaining that agrees with the state. -/
abbrev Lease.Lawful (l : Lease) : Prop :=
  (1 ≤ l.channels.length ∧ l.channels.length ≤ 8 ∧ l.channels.Nodup) ∧
    (1 ≤ l.term ∧ l.term ≤ 65535 ∧ l.warnMargin < l.term ∧ l.warnMargin ≤ 255 ∧ l.renewCount ≤ 255) ∧
    (l.isPending = true →
      l.remaining = l.term ∧ l.warned = false ∧ l.renewCount = 0 ∧ l.grantTick = 0 ∧ l.renewTick = 0) ∧
    (l.isHeld = true → 1 ≤ l.remaining ∧ l.remaining ≤ l.term) ∧
    ∀ cause ∈ l.lapseCause?, l.remaining ≤ l.term ∧ (l.remaining = 0 ↔ cause = .expired)

/-- Every lease record obeys its laws. -/
abbrev State.LeasesLawful (s : State) : Prop := ∀ i : SlotNo, ∀ l ∈ s.leaseAt i, l.Lawful

/-- The relation of R49: a HELD lease's remaining is its term less the ticks since its latest renewal, modulo 65536. -/
abbrev State.CountsAgree (s : State) : Prop :=
  ∀ i : SlotNo, ∀ l ∈ s.leaseAt i,
    l.isHeld = true → l.remaining = l.term - (s.clock.tickCounter - l.renewTick).toNat

/-! ## The wait list -/

/-- An entry names a PENDING lease. -/
def State.namesPending (s : State) (h : Handle) : Bool :=
  match s.lookup h with
  | some l => l.isPending
  | none => false

/-- The laws of the wait list (R35, R36): at most 16 entries, each of them a PENDING lease and each PENDING lease once, in the
order of their holders' classes, highest first. -/
abbrev State.WaitListLawful (s : State) : Prop :=
  s.waitList.length ≤ 16 ∧ s.waitList.Nodup ∧ (∀ h ∈ s.waitList, s.namesPending h = true) ∧
    (∀ i : SlotNo, s.slotHas Lease.isPending i = true → s.handleAt i ∈ s.waitList) ∧
    s.waitList.Pairwise fun a b => ∀ c ∈ s.classOf a, ∀ d ∈ s.classOf b, d ≤ c

/-! ## Channels -/

/-- A handle names a HELD lease that lists channel `n`. -/
def State.namesHolder (s : State) (n : ChannelNo) (h : Handle) : Bool :=
  match s.lookup h with
  | some l => l.isHeld && l.channels.contains n
  | none => false

/-- The channel table and the lease table agree (R72): a channel is HELD exactly by the one HELD lease that lists it. -/
abbrev State.HoldingsAgree (s : State) : Prop :=
  (∀ n : ChannelNo, ∀ h ∈ (s.channel n).holding, s.namesHolder n h = true) ∧
    ∀ i : SlotNo, ∀ l ∈ s.leaseAt i,
      l.isHeld = true → ∀ n ∈ l.channels, (s.channel n).holding = some (s.handleAt i)

/-- What a HELD channel holds, absent outside HELD (R71). -/
def Channel.held? (c : Channel) : Option HeldUse :=
  match c.use with
  | .held u => some u
  | .idle => none
  | .faulted => none

/-- The drive record is a pulse. -/
def Drive.isPulse : Drive → Bool
  | .pulse _ _ => true
  | .pwm _ => false
  | .steady _ => false

/-- The laws of what a HELD channel drives (R71, R77, R78): a running pulse exactly while the drive record is a pulse, and no
pending PWM change beside it. -/
abbrev HeldUse.Lawful (u : HeldUse) : Prop :=
  (∀ duty ∈ u.pendingPwm, 1 ≤ duty ∧ duty ≤ 255) ∧ u.drive.value ≤ 255 ∧
    (u.drive.modeCode = 3 → 1 ≤ u.drive.value) ∧
    (u.drive.isPulse = true → 1 ≤ u.pulse ∧ u.pulse ≤ u.drive.value ∧ u.pendingPwm = none) ∧
    (u.drive.isPulse = false → u.pulse = 0)

/-- Every HELD channel's drive obeys its laws. -/
abbrev State.DrivesLawful (s : State) : Prop :=
  ∀ n : ChannelNo, ∀ u ∈ (s.channel n).held?, u.Lawful

/-- The phase of a checker and its timers agree with its channel (R91). -/
abbrev Channel.CheckerLawful (c : Channel) : Prop :=
  (c.phase = .stopped ↔ c.isFaulted = true) ∧
    (c.phase = .inactive ↔ c.isFaulted = false ∧ c.senseCheck = false) ∧
    (c.phase = .suspended ↔ c.isFaulted = false ∧ c.senseCheck = true ∧ c.checkedLevel = none) ∧
    (c.settleTimer ≠ none ↔ c.phase = .settling) ∧ (c.mismatchTimer ≠ none ↔ c.phase = .mismatch) ∧
    (c.phase = .watching → c.checkedLevel = some c.senseLevel) ∧
    (c.phase = .mismatch → c.checkedLevel ≠ some c.senseLevel)

/-- Every checker agrees with its channel; while a device reset lasts no checker follows its input (R134). -/
abbrev State.CheckersLawful (s : State) : Prop :=
  s.resetCtl.active = false → ∀ n : ChannelNo, (s.channel n).CheckerLawful

/-! ## Hold-down -/

/-- While hold-down is in force no lease is HELD (R138). -/
abbrev State.HoldDownLawful (s : State) : Prop :=
  s.holdDown = true → ∀ i : SlotNo, s.slotHas Lease.isHeld i = false

/-- The hold-down causes agree with the supply monitor and the lease clock (R118, R129, R138), and their timers run exactly
where the manual says they do (R123, R129). -/
abbrev State.CausesLawful (s : State) : Prop :=
  (s.causes.supply = true ↔ s.supply.state ≠ .normal) ∧ (s.causes.clock = true ↔ s.clock.state = .lost) ∧
    (s.clock.state = .lost → s.clock.source = .external ∧ s.clock.silenceLimit ≠ 0) ∧
    (s.supply.recoveryTimer ≠ none ↔ s.supply.state = .recovering) ∧
    (s.clock.silenceTimer ≠ none ↔
      s.clock.source = .external ∧ s.clock.silenceLimit ≠ 0 ∧ s.clock.state = .running)

/-! ## Stations -/

/-- The laws of the station records (R103, R105, R109): within the quota, nothing held while detached, device kinds in the
supervisor's mask alone, and GRANTED enabled while a lease waits. -/
abbrev State.StationsLawful (s : State) : Prop :=
  ∀ st : Station,
    (1 ≤ (s.station st).quota ∧ (s.station st).quota ≤ 24 ∧ s.usedSlots st ≤ (s.station st).quota) ∧
      ((s.station st).attached = false → s.usedSlots st = 0 ∧ (s.station st).mask = .empty) ∧
      (st ≠ 0 → (s.station st).mask.device = .empty) ∧
      (s.hasPending st = true → (s.station st).mask.lease.granted = true)

/-! ## Ports -/

/-- The port state agrees with the buffers (R143, R146): empty in IDLE, a partial request in ASSEMBLING, a complete one in
QUEUED, a reply of at most 75 bytes in REPLY. -/
abbrev Port.Lawful (p : Port) : Prop :=
  (p.state = .idle → p.request = [] ∧ p.expected = none ∧ p.reply = [] ∧ p.readPos = 0) ∧
    (p.state = .assembling →
      p.request ≠ [] ∧ p.expected = expectedLength p.request ∧ (∀ n ∈ p.expected, p.request.length < n) ∧
        p.request.length < 27 ∧ p.reply = [] ∧ p.readPos = 0) ∧
    (p.state = .queued →
      p.expected = some p.request.length ∧ expectedLength p.request = some p.request.length ∧
        p.request.length ≤ 27 ∧ p.reply = [] ∧ p.readPos = 0) ∧
    (p.state = .reply →
      p.request = [] ∧ p.expected = none ∧ p.reply ≠ [] ∧ p.reply.length ≤ 75 ∧ p.readPos ≤ p.reply.length)

/-- Every port's state agrees with its buffers. -/
abbrev State.PortsLawful (s : State) : Prop := ∀ p : Station, (s.port p).Lawful

/-! ## Ranges -/

/-- The ranges of the clock's settings and of the counters (R118, R163). -/
abbrev State.RangesLawful (s : State) : Prop :=
  (1 ≤ s.clock.settleMs ∧ s.clock.settleMs ≤ 15) ∧ s.clock.silenceLimit ≤ 255 ∧ s.restartCount ≤ 255 ∧
    (s.clock.source = .internal → s.clock.silenceLimit = 0) ∧
    (s.clock.source = .external → s.clock.prescale < tickDivisor s.clock.divisorIndex)

/-! ## The whole part -/

/-- A sound state: every law at once. -/
abbrev State.Sound (s : State) : Prop :=
  s.LeasesLawful ∧ s.CountsAgree ∧ s.WaitListLawful ∧ s.HoldingsAgree ∧ s.DrivesLawful ∧ s.CheckersLawful ∧
    s.HoldDownLawful ∧ s.CausesLawful ∧ s.StationsLawful ∧ s.PortsLawful ∧ s.RangesLawful

/-! ## What a change leaves as it was -/

/-- The lease table and the wait list are unchanged. -/
abbrev SameLeases (s t : State) : Prop := t.slots = s.slots ∧ t.waitList = s.waitList

/-- The channel table and its sense checkers are unchanged. -/
abbrev SameChannels (s t : State) : Prop := t.channels = s.channels

/-- The station table and the device notices are unchanged. -/
abbrev SameStations (s t : State) : Prop := t.stations = s.stations ∧ t.deviceNotices = s.deviceNotices

/-- The lease clock and the PWM timebase are unchanged. -/
abbrev SameClock (s t : State) : Prop := t.clock = s.clock ∧ t.frameTime = s.frameTime

/-- The supply monitor and the hold-down cause set are unchanged. -/
abbrev SameSupply (s t : State) : Prop := t.supply = s.supply ∧ t.causes = s.causes

/-- The device reset, its recorded cause and the restart count are unchanged. -/
abbrev SameResets (s t : State) : Prop :=
  t.resetCtl = s.resetCtl ∧ t.lastReset = s.lastReset ∧ t.restartCount = s.restartCount

/-- The ports and the rotation pointer are unchanged. -/
abbrev SamePorts (s t : State) : Prop := t.ports = s.ports ∧ t.pointer = s.pointer

/-- The supply and the input pins, the model's counter of choices and the queue of commands are unchanged. -/
abbrev SameOutside (s t : State) : Prop :=
  t.vdd = s.vdd ∧ t.rstPin = s.rstPin ∧ t.tickPin = s.tickPin ∧ t.choices = s.choices ∧ t.pending = s.pending

/-- The two states agree in everything but the lease table, the wait list and the channel table. -/
abbrev SameBesideTables (s t : State) : Prop :=
  SameStations s t ∧ SameClock s t ∧ SameSupply s t ∧ SameResets s t ∧ SamePorts s t ∧ SameOutside s t

/-- The two states agree in everything but the ports and the rotation pointer. -/
abbrev SameBesidePorts (s t : State) : Prop :=
  SameLeases s t ∧ SameChannels s t ∧ SameStations s t ∧ SameClock s t ∧ SameSupply s t ∧ SameResets s t ∧
    SameOutside s t

/-! ## The completion of a request -/

/-- The engine can take the request of station `st` now (R156, R157): the request is well formed and the station's, no device
reset lasts, and its port is QUEUED with the request's bytes and is the arbiter's choice. -/
abbrev State.Ready (s : State) (i : Instr) (st : Station) : Prop :=
  i.wellFormed = true ∧ i.request? = some (st, i.requestBytes) ∧ s.resetCtl.active = false ∧
    (s.port st).state = .queued ∧ (s.port st).request = i.requestBytes ∧ s.arbiterChoice = some st

/-- The reply is placed in port `st` (R149, R157): the request buffer is empty, the port is in REPLY with nothing of the reply
read, its error field and the last byte on its data bus are kept, the other ports are unchanged, and the pointer names the
port. -/
abbrev Answered (s t : State) (st : Station) (reply : List Byte) : Prop :=
  (t.port st).state = .reply ∧ (t.port st).request = [] ∧ (t.port st).expected = none ∧ (t.port st).reply = reply ∧
    (t.port st).readPos = 0 ∧ (t.port st).error = (s.port st).error ∧ (t.port st).dataBus = (s.port st).dataBus ∧
    (∀ p, p ≠ st → t.port p = s.port p) ∧ t.pointer = st

/-- The request completes from `s`: `exec` answers a next state, in which the station is answered with `reply` and everything
beside the ports is as it stands in `u`. -/
def Completes (i : Instr) (s : State) (st : Station) (reply : List Byte) (u : State) : Prop :=
  ∃ t, exec i s = .next t ∧ Answered s t st reply ∧ SameBesidePorts u t

/-! ## What a lapse, a freeing and a grant leave -/

/-- The phase a checker takes at a start of checking on a channel that is not FAULTED (R92). -/
def startPhase (senseCheck : Bool) (checked : Option Level) : Phase :=
  if senseCheck = false then .inactive else if checked = none then .suspended else .settling

/-- The settle timer at a start of checking on a channel that is not FAULTED (R92): started where the phase is SETTLING. -/
def startTimer (senseCheck : Bool) (checked : Option Level) : Option Nat :=
  if senseCheck = true ∧ checked ≠ none then some 0 else none

/-- The channel back at its fallback (R13): IDLE, nothing of the drive left, its configuration and its sense input as they
were, and its checker started afresh at the fallback. -/
def Channel.atFallback (c : Channel) : Channel :=
  { c with
    use := .idle
    phase := startPhase c.senseCheck c.fallback.checked
    settleTimer := startTimer c.senseCheck c.fallback.checked
    mismatchTimer := none }

/-- Channel `n` is HELD, and is in the channel set of a HELD lease in one of the slots `p`. -/
abbrev State.InHeldSlot (s : State) (p : SlotNo → Bool) (n : ChannelNo) : Prop :=
  (s.channel n).isHeld = true ∧ ∃ i, p i = true ∧ ∃ l, s.leaseAt i = some l ∧ l.state = .held ∧ n ∈ l.channels

/-- What goes with the leases of the slots `p` leaving HELD or PENDING (R13, R14): the channels of the HELD ones are back at
their fallbacks, the entries of the PENDING ones are off the wait list with the others closed up, and nothing outside the lease
table changes. -/
abbrev LeavesTables (s u : State) (p : SlotNo → Bool) : Prop :=
  (∀ n, s.InHeldSlot p n → u.channel n = (s.channel n).atFallback) ∧
    (∀ n, ¬ s.InHeldSlot p n → u.channel n = s.channel n) ∧
    u.waitList = s.waitList.filter (fun h => !p h.slot) ∧
    SameBesideTables s u

/-- The lease after a lapse (R11): LAPSED with the cause and the LAPSED notice, every other field kept. -/
def Lease.lapsedWith (cause : LapseCause) (l : Lease) : Lease :=
  { l with state := .lapsed cause, notices := { l.notices with lapsed := true } }

/-- The leases of the slots `p` that were not LAPSED have lapsed with the cause (R11, R13, R14, R16), and nothing else has
changed. -/
abbrev LapseOf (s u : State) (p : SlotNo → Bool) (cause : LapseCause) : Prop :=
  LeavesTables s u p ∧ (∀ i, (u.slot i).gen = (s.slot i).gen) ∧
    ∀ i, u.leaseAt i =
      (s.leaseAt i).map fun l => if p i = true ∧ l.isLapsed = false then l.lapsedWith cause else l

/-- The slots `p` are FREE, each that held a lease one generation on (R6, R12, R13, R14, R16), and nothing else has
changed. -/
abbrev FreeingOf (s u : State) (p : SlotNo → Bool) : Prop :=
  LeavesTables s u p ∧
    ∀ i, (p i = true → u.leaseAt i = none ∧
        (u.slot i).gen = if (s.leaseAt i).isSome then (s.slot i).gen + 1 else (s.slot i).gen) ∧
      (p i = false → u.slot i = s.slot i)

/-- The lease after a grant at tick counter `tick` (R10): HELD for its whole term, every other field kept. -/
def Lease.grantedAt (tick : Word) (l : Lease) : Lease :=
  { l with state := .held, remaining := l.term, grantTick := tick, renewTick := tick, renewCount := 0, warned := false }

/-- The channel after a grant to the lease `h` (R10): HELD, with the drive record equal to its fallback, and its checker
left as it is. -/
def Channel.grantedTo (h : Handle) (c : Channel) : Channel :=
  { c with use := .held { lease := h, drive := .steady c.fallback, pendingPwm := none, pulse := 0 } }

/-- The lease in slot `i` of `s` has become HELD in `u` (R10), its channels with it, and nothing else has changed. `l` is the
lease as it stood. -/
abbrev GrantOf (s u : State) (i : SlotNo) (l : Lease) : Prop :=
  u.slot i = ⟨(s.slot i).gen, some (l.grantedAt s.clock.tickCounter)⟩ ∧ (∀ j, j ≠ i → u.slot j = s.slot j) ∧
    (∀ n, u.channel n = if n ∈ l.channels then (s.channel n).grantedTo (s.handleAt i) else s.channel n) ∧
    u.waitList = s.waitList ∧ SameBesideTables s u

/-! ## The checks of every request, as the manual lists them -/

/-- The lease that a handle byte names, none where it names slot 24 to 31, a FREE slot or another generation (R7). -/
def State.named (s : State) (handle : Byte) : Option Lease :=
  if h : handle.toNat / 8 < 24 then
    if (s.slot ⟨handle.toNat / 8, h⟩).gen.val = handle.toNat % 8 then s.leaseAt ⟨handle.toNat / 8, h⟩ else none
  else none

/-- A property of the lease that a handle byte names; false where it names none. -/
def State.namedHas (s : State) (handle : Byte) (p : Lease → Bool) : Bool :=
  match s.named handle with
  | some l => p l
  | none => false

/-- Some lease in the table has the property. -/
abbrev State.someLease (s : State) (p : Lease → Bool) : Prop := ∃ i : SlotNo, ∃ l ∈ s.leaseAt i, p l = true

/-- A value of a DRIVE entry is legal for its mode (R84 step 5). -/
def legalEntry (e : DriveEntry) : Bool :=
  (decide (e.mode.toNat ≤ 2) && decide (e.value.toNat = 0)) ||
    (decide (3 ≤ e.mode.toNat) && decide (e.mode.toNat ≤ 5) && decide (1 ≤ e.value.toNat))

/-- The claim can be granted at once (R28): every channel IDLE, and no PENDING lease of equal or higher class lists one. -/
abbrev State.AvailableAtOnce (s : State) (st : Station) (channels : List ChannelNo) : Prop :=
  (∀ n ∈ channels, (s.channel n).use = .idle) ∧
    ∀ i : SlotNo, ∀ l ∈ s.leaseAt i, l.state = .pending → (∃ n ∈ channels, n ∈ l.channels) →
      (s.station l.holder).cls < (s.station st).cls

/-- Preemption applies (R30): every channel that is not IDLE is HELD by a lease whose holder's class is strictly lower. -/
abbrev State.PreemptionApplies (s : State) (st : Station) (channels : List ChannelNo) : Prop :=
  ∀ n ∈ channels, (s.channel n).use = .idle ∨
    ∃ h ∈ (s.channel n).holding, ∃ l ∈ s.lookup h, (s.station l.holder).cls < (s.station st).cls

/-- The checks of a CLAIM in their order, with the status each gives: R25 steps 2 to 6, R26 steps 7 to 11, and the refusals of
R32 to R34 where the claim can be neither granted nor queued. -/
def claimRefusals (st : Station) (options : Byte) (term : Word) (warnMargin count : Byte) (channels : List Byte)
    (s : State) : List (Bool × Byte) :=
  let set := channelsOf channels
  let blocked := decide (¬ s.AvailableAtOnce st set) &&
    !(options.getLsbD 1 && decide (s.PreemptionApplies st set))
  [(!(s.station st).attached, 0x13#8),
    (decide (count.toNat = 0 ∨ 8 < count.toNat), 0x11#8),
    (channels.any fun b => decide (32 ≤ b.toNat), 0x11#8),
    (decide (¬ channels.Nodup), 0x12#8),
    (decide (term.toNat = 0 ∨ term.toNat ≤ warnMargin.toNat ∨ 4 ≤ options.toNat), 0x11#8),
    (set.any fun n => decide ((s.station st).cls < (s.channel n).minClass), 0x43#8),
    (set.any fun n => decide ((s.channel n).use = .faulted), 0x42#8),
    (s.causes.supply || s.causes.clock, 0x44#8),
    (decide (s.usedSlots st = (s.station st).quota), 0x31#8),
    (decide (∀ i, s.leaseAt i ≠ none), 0x30#8),
    (blocked && options.getLsbD 0 && !(s.station st).mask.lease.granted, 0x33#8),
    (blocked && options.getLsbD 0 && decide (16 ≤ s.waitList.length), 0x32#8),
    (blocked && !options.getLsbD 0 && options.getLsbD 1, 0x41#8),
    (blocked && !options.getLsbD 0 && !options.getLsbD 1, 0x40#8)]

/-- The checks of the request in their order, each with the status it gives when it fails (R7, R164): an empty list for a request
that makes none, and for a command that is no request. -/
def State.refusals (s : State) (i : Instr) : List (Bool × Byte) :=
  let detached (st : Station) : Bool × Byte := (!(s.station st).attached, 0x13#8)
  let denied (st : Station) : Bool × Byte := (decide (st ≠ 0), 0x14#8)
  let noSlot (handle : Byte) : Bool × Byte := (decide (0xC0 ≤ handle.toNat), 0x11#8)
  let stale (handle : Byte) : Bool × Byte := (decide (s.named handle = none), 0x20#8)
  let notHolder (st : Station) (handle : Byte) : Bool × Byte :=
    (s.namedHas handle fun l => decide (l.holder ≠ st), 0x21#8)
  let notHeld (handle : Byte) : Bool × Byte := (s.namedHas handle Lease.isPending, 0x23#8)
  let lapsed (handle : Byte) : Bool × Byte := (s.namedHas handle Lease.isLapsed, 0x22#8)
  match i with
  | .queryChannel _ channel => [(decide (32 ≤ channel.toNat), 0x11#8)]
  | .queryLease _ handle => [noSlot handle, stale handle]
  | .listLeases _ station => [(decide (4 ≤ station.toNat), 0x11#8)]
  | .detach st => [detached st]
  | .setMask st mask =>
    [detached st, (decide (64 ≤ mask.toNat), 0x11#8),
      (!mask.getLsbD 0 && decide (s.someLease fun l => l.holder == st && l.isPending), 0x45#8)]
  | .poll st => [detached st]
  | .claim st options term warnMargin count channels => claimRefusals st options term warnMargin count channels s
  | .renew st handle newTerm =>
    [detached st, noSlot handle, stale handle, notHolder st handle, notHeld handle, lapsed handle,
      (s.namedHas handle fun l => decide (newTerm.toNat ≠ 0 ∧ newTerm.toNat ≤ l.warnMargin), 0x11#8)]
  | .renewAll st => [detached st]
  | .drive st handle count entries =>
    [detached st, (decide (count.toNat = 0 ∨ 8 < count.toNat), 0x11#8), noSlot handle,
      (entries.any fun e => decide (32 ≤ e.channel.toNat), 0x11#8), (entries.any fun e => !legalEntry e, 0x11#8),
      (decide (¬ (entries.map DriveEntry.channel).Nodup), 0x12#8), stale handle, notHolder st handle,
      notHeld handle, lapsed handle,
      (s.namedHas handle fun l => entries.any fun e =>
        decide (∀ n ∈ l.channels, n.val ≠ e.channel.toNat), 0x24#8)]
  | .release st handle => [detached st, noSlot handle, stale handle, notHolder st handle]
  | .configChannel st channel config minClass =>
    [detached st, denied st,
      (decide (32 ≤ channel.toNat ∨ config.toNat % 4 = 3 ∨ 8 ≤ config.toNat ∨ 4 ≤ minClass.toNat), 0x11#8),
      (decide (∃ n ∈ channelOf? channel, (s.channel n).isHeld = true ∨
        s.someLease fun l => l.isPending && l.channels.contains n), 0x45#8)]
  | .configStation st station cls quota =>
    [detached st, denied st,
      (decide (4 ≤ station.toNat ∨ 4 ≤ cls.toNat ∨ quota.toNat = 0 ∨ 24 < quota.toNat), 0x11#8),
      (decide (∃ t ∈ stationOf? station, (s.station t).cls.val ≠ cls.toNat ∧ (s.station t).attached = true), 0x45#8),
      (decide (∃ t ∈ stationOf? station, quota.toNat < s.usedSlots t), 0x45#8)]
  | .configClock st sourceEdge rate silence frame settle =>
    [detached st, denied st,
      (decide (4 ≤ sourceEdge.toNat ∨ (sourceEdge.getLsbD 0 = false ∧ (8 ≤ rate.toNat ∨ silence.toNat ≠ 0)) ∨
        (sourceEdge.getLsbD 0 = true ∧ 3 ≤ rate.toNat) ∨ 4 ≤ frame.toNat ∨ settle.toNat = 0 ∨
        15 < settle.toNat), 0x11#8),
      (decide (s.someLease fun l => l.isHeld || l.isPending), 0x45#8)]
  | .configSupply st index => [detached st, denied st, (decide (4 ≤ index.toNat), 0x11#8)]
  | .clearFault st channel => [detached st, denied st, (decide (32 ≤ channel.toNat), 0x11#8)]
  | .revoke st handle => [detached st, denied st, noSlot handle, stale handle, lapsed handle]
  | .restart st => [detached st, denied st]
  | .readStatus _ => []
  | .attach _ => []
  | .commandByte _ _ => []
  | .dataByte _ _ => []
  | .unknownCommandByte _ _ => []
  | .abort _ => []
  | .replay _ => []
  | .statusRead _ => []
  | .dataRead _ => []
  | .leaseTick => []
  | .leaseExpiry => []
  | .pulseEnd _ => []
  | .frameStart => []
  | .senseChange _ _ => []
  | .settleEnd _ => []
  | .senseFault _ => []
  | .qualifyingEdge _ => []
  | .silenceExpiry => []
  | .supplyBelowVt _ => []
  | .supplyAboveVt _ => []
  | .supplyLowEvent => []
  | .supplyRise _ => []
  | .recoveryExpiry => []
  | .deviceReset _ => []
  | .resetEnd => []
  | .lastResetConditionClears _ => []

/-- The status of the first check in the list that fails, none where every check passes (R164). -/
def firstRefusal (checks : List (Bool × Byte)) : Option Byte := (checks.find? fun c => c.1).map Prod.snd

/-- Every check of the request passes, and the engine can take it now. -/
abbrev State.Accepts (s : State) (i : Instr) (st : Station) : Prop :=
  s.Ready i st ∧ firstRefusal (s.refusals i) = none

/-- The reply of a refused request (R27, R165): the status alone, and for a CLAIM the handle 0xFF and the wait position 0 after
it. -/
def refusalReply (i : Instr) (status : Byte) : List Byte :=
  match i.requestBytes.head? with
  | some command => if command = 0x20#8 then [status, 0xFF#8, 0x00#8] else [status]
  | none => [status]

/-! ## What a change of drive and a lease tick leave -/

/-- The HELD channel now driving as `u` says (R83, R92): its checker is left as it is where the checked level stays what it was, and
starts afresh otherwise. -/
def Channel.nowDriving (c : Channel) (u : HeldUse) : Channel :=
  if u.drive.checked = c.checkedLevel then { c with use := .held u }
  else
    { c with
      use := .held u
      phase := startPhase c.senseCheck u.drive.checked
      settleTimer := startTimer c.senseCheck u.drive.checked
      mismatchTimer := none }

/-- The steady level that a pulse's level leaves when the pulse is cut short, which is the pulse's own (R78). -/
def sameLevel : Level → Steady
  | .low => .low
  | .high => .high

/-- The steady level that follows the end of a pulse, which is the opposite (R81). -/
def oppositeLevel : Level → Steady
  | .low => .high
  | .high => .low

/-- What a DRIVE entry of the mode and value leaves of the drive record, the pending PWM change and the pulse, by the drive in
force (R75, R78, R80). -/
def HeldUse.afterEntry (mode value : Nat) (u : HeldUse) : HeldUse :=
  if mode = 0 then { u with drive := .steady .low, pendingPwm := none, pulse := 0 }
  else if mode = 1 then { u with drive := .steady .high, pendingPwm := none, pulse := 0 }
  else if mode = 2 then { u with drive := .steady .off, pendingPwm := none, pulse := 0 }
  else if mode = 4 then { u with drive := .pulse .high value, pendingPwm := none, pulse := value }
  else if mode = 5 then { u with drive := .pulse .low value, pendingPwm := none, pulse := value }
  else
    match u.drive with
    | .steady _ => { u with pendingPwm := some value }
    | .pwm duty => { u with pendingPwm := if duty = value then none else some value }
    | .pulse level _ => { u with drive := .steady (sameLevel level), pendingPwm := some value, pulse := 0 }

/-- What a lease tick leaves of a channel's pulse (R81): one count less, and at 0 the opposite steady level. -/
def HeldUse.afterTick (u : HeldUse) : HeldUse :=
  match u.drive with
  | .pulse level _ =>
    if u.pulse = 0 then u
    else if u.pulse = 1 then { u with drive := .steady (oppositeLevel level), pulse := 0 }
    else { u with pulse := u.pulse - 1 }
  | .steady _ => { u with pulse := u.pulse - 1 }
  | .pwm _ => { u with pulse := u.pulse - 1 }

/-- The lease after the count of one lease tick, before any expiry (R48 steps 1 and 2). -/
def Lease.afterTick (l : Lease) : Lease :=
  if l.state = .held then
    let warns := decide (l.remaining - 1 = l.warnMargin ∧ l.warnMargin ≠ 0 ∧ l.warned = false)
    { l with
      remaining := l.remaining - 1
      warned := l.warned || warns
      notices := { l.notices with warning := l.notices.warning || warns } }
  else l

/-- The counts of a lease tick (R48, R81, R121, R122): the tick counter, every HELD lease and every pulse. Nothing else
changes. -/
abbrev CountOf (s c : State) : Prop :=
  c.clock = { s.clock with tickCounter := s.clock.tickCounter + 1 } ∧
    (∀ i, (c.slot i).gen = (s.slot i).gen ∧ c.leaseAt i = (s.leaseAt i).map Lease.afterTick) ∧
    (∀ n u, (s.channel n).use = .held u → c.channel n = (s.channel n).nowDriving u.afterTick) ∧
    (∀ n, (s.channel n).isHeld = false → c.channel n = s.channel n) ∧
    c.waitList = s.waitList ∧ SameStations s c ∧ c.frameTime = s.frameTime ∧ SameSupply s c ∧ SameResets s c ∧
    SamePorts s c ∧ SameOutside s c

/-- A HELD lease whose remaining stands at 0 is in slot `i`. -/
def State.isDue (s : State) (i : SlotNo) : Bool :=
  match s.leaseAt i with
  | some l => decide (l.state = .held ∧ l.remaining = 0)
  | none => false

/-- The expiries (R50, R53): every HELD lease at remaining 0 has lapsed with cause EXPIRED, and one grant evaluation has followed if
there was one. -/
def ExpiryOf (c t : State) : Prop :=
  ∃ v, LapseOf c v c.isDue .expired ∧ t = if ∃ i, c.isDue i = true then v.grantEvaluation else v

/-- A whole lease tick (R48, R50, R121): the counts, then the expiries. -/
def TickOf (s t : State) : Prop := ∃ c, CountOf s c ∧ ExpiryOf c t

/-- The CLOCK or the SUPPLY cause has left (R138, R141): with no cause left, CLEAR is raised and grant evaluation follows; with the
other cause still present, the set alone changes. -/
def causesAre (s : State) (causes : HoldCauses) : State :=
  if causes = ⟨false, false⟩ then
    State.grantEvaluation { s with causes := causes, deviceNotices := { s.deviceNotices with clear := true } }
  else { s with causes := causes }

/-- A cause has entered (R138, R139): into an empty set, every HELD lease has lapsed with the cause and HOLD is raised; into a set
that is not empty, the set alone changes. -/
def HoldEntryOf (s t : State) (causes : HoldCauses) (lapse : LapseCause) : Prop :=
  (s.causes = ⟨false, false⟩ → ∃ v, LapseOf s v (s.slotHas Lease.isHeld) lapse ∧
      t = { v with causes := causes, deviceNotices := { v.deviceNotices with hold := true } }) ∧
    (s.causes ≠ ⟨false, false⟩ → t = { s with causes := causes })

/-! ## The passing of time -/

/-- The part with every running timer one microsecond on (R76, R91, R119, R123, R129, R130): the checkers' timers, the prescale count
of the INTERNAL source, the silence timer, the frame, the supply-low filter and the recovery timer. While a device reset lasts, its
2 ms alone (R134). -/
def State.oneLater (s : State) : State :=
  let later : Option Nat → Option Nat := Option.map (· + 1)
  if s.resetCtl.active = true then
    { s with resetCtl := { s.resetCtl with release := later s.resetCtl.release } }
  else
    { s with
      channels := Vector.ofFn fun n =>
        { s.channel n with
          settleTimer := later (s.channel n).settleTimer, mismatchTimer := later (s.channel n).mismatchTimer }
      clock :=
        { s.clock with
          prescale := s.clock.prescale + (if s.clock.source = .internal then 1 else 0)
          silenceTimer := later s.clock.silenceTimer }
      frameTime := s.frameTime + 1
      supply :=
        { s.supply with recoveryTimer := later s.supply.recoveryTimer, filter := later s.supply.filter } }

/-- The timed events of the part, each with its time: the tick period of the INTERNAL source (R119), the silence limit in units of
10 ms (R123), the frame period (R76), 50 µs of the supply-low filter (R130), 20 ms of recovery (R131), and the settle window S for the
settle and the mismatch of each channel (R91, R93, R94). While a device reset lasts none of them comes, and its end comes 2 ms after its
last condition (R134). -/
def State.timetable (s : State) : List (Bool × Instr) :=
  let ran (limit : Nat) (timer : Option Nat) : Bool := timer.any fun time => decide (limit ≤ time)
  if s.resetCtl.active = true then [(ran 2000 s.resetCtl.release, .resetEnd)]
  else
    [(decide (s.clock.source = .internal ∧
        #v[1000, 2000, 5000, 10000, 20000, 50000, 100000, 200000][s.clock.periodIndex] ≤ s.clock.prescale), .leaseTick),
      (ran (10000 * s.clock.silenceLimit) s.clock.silenceTimer, .silenceExpiry),
      (decide (#v[10000, 4000, 1000, 250][s.clock.frameIndex] ≤ s.frameTime), .frameStart),
      (ran 50 s.supply.filter, .supplyLowEvent), (ran 20000 s.supply.recoveryTimer, .recoveryExpiry)] ++
      (List.finRange 32).flatMap fun n =>
        [(ran (1000 * s.clock.settleMs) (s.channel n).settleTimer, .settleEnd n),
          (ran (1000 * s.clock.settleMs) (s.channel n).mismatchTimer, .senseFault n)]

/-- The timed events whose time has come. -/
def State.comingDue (s : State) : List Instr := (s.timetable.filter Prod.fst).map Prod.snd

/-- The events that have come due in `a` are taken one by one, each as the event of its own row, in any order (R132, R142), and what is
due is judged afresh after each, until none is due. Where several are due the model counts its choice of one (log entry 3). -/
inductive TakesDue : State → State → Prop where
  | rest {a : State} : a.comingDue = [] → TakesDue a a
  | event {a b t : State} {c : Instr} : c ∈ a.comingDue →
      exec c { a with choices := if a.comingDue = [c] then a.choices else a.choices + 1 } = .next b →
      TakesDue b t → TakesDue a t

/-! ## Commands one after another -/

/-- The state after the commands, one after another; none if one of them stops. -/
def runCommands : List Instr → State → Option State
  | [], s => some s
  | c :: rest, s =>
    match exec c s with
    | .next t => runCommands rest t
    | .fault _ => none
    | .refused _ => none

end Sys2Proof.Machine
end

