-- ==== Sys2Proof/Certificates/Slice0/Obligations.lean ====
section
/-! DEFINITION. The statements for the provers, each with the rule of the manual it rests on. -/

open Sys2Proof Sys2Proof.Machine

/-! ## The machine as a whole -/

/-- One step runs the command at the front of the queue on the state with the queue's rest. -/
def Obligations.StepRunsFrontCommand : Prop :=
  ∀ (s : State) (c : Instr) (rest : List Instr),
    step { s with pending := c :: rest } = exec c { s with pending := rest }

/-- With no command waiting, the engine takes the arbiter's choice of its own accord (R156): the step is the take of the request that
waits there. With no request to take, one microsecond passes: every running timer is one microsecond on, and the events whose time has
come (R76, R91, R93, R94, R119, R123, R130, R131, R134) are taken until none is due, and no others. That an empty queue leaves the part
to itself, a microsecond at a time, is the model's choice (log entry 5), and the order of events of one microsecond is open (log
entry 3). -/
def Obligations.EmptyQueueTakesChoice : Prop :=
  (∀ (s : State) (i : Instr) (st : Station), s.pending = [] → s.Ready i st → step s = exec i s) ∧
    ∀ s : State, s.CheckersLawful → s.CausesLawful → s.RangesLawful → s.pending = [] → s.arbiterChoice = none →
      ∃ t, step s = .next t ∧ TakesDue s.oneLater t

/-- No command stops the part, in any state: the manual gives every command an effect or the answer that it has none. -/
def Obligations.EveryCommandAnswers : Prop := ∀ (i : Instr) (s : State), ∃ t, exec i s = .next t

/-- A command's effect is on everything but the queue of commands. -/
def Obligations.CommandsKeepQueue : Prop := ∀ (i : Instr) (s t : State), exec i s = .next t → t.pending = s.pending

/-- The values of a device reset (R22, R47, R89, R102, R116, R118, R143, R156, R163), with the supply above the rise level (R136) and
the reset cause POWER (R135), which are the model's choice of reset (log entry 1). -/
def Obligations.ResetValues : Prop :=
  (∀ i, State.reset.slot i = ⟨0, none⟩) ∧ State.reset.waitList = [] ∧
    (∀ n, State.reset.channel n =
      { use := .idle, fallback := .low, senseCheck := false, minClass := 0, senseLevel := .low, phase := .inactive,
        settleTimer := none, mismatchTimer := none }) ∧
    (∀ st, State.reset.station st =
      { attached := false, cls := 0, quota := 6, mask := ⟨⟨false, false, false⟩, ⟨false, false, false⟩⟩ }) ∧
    State.reset.deviceNotices = ⟨false, false, false⟩ ∧
    State.reset.clock =
      { source := .internal, periodIndex := 3, edge := .rising, divisorIndex := 0, silenceLimit := 0, prescale := 0,
        silenceTimer := none, state := .running, tickCounter := 0, frameIndex := 2, settleMs := 5 } ∧
    State.reset.supply = { state := .recovering, threshold := 0, recoveryTimer := some 0, filter := none } ∧
    State.reset.causes = ⟨true, false⟩ ∧ State.reset.lastReset = .power ∧
    (∀ p, State.reset.port p =
      { state := .idle, request := [], expected := none, reply := [], readPos := 0, error := .none,
        dataBus := none }) ∧
    State.reset.pointer = 3 ∧ State.reset.restartCount = 0

/-- The state right after reset is sound. -/
def Obligations.ResetIsSound : Prop := State.reset.Sound

/-- Every step from a sound state leads to a sound state: the laws of the lease records, the relation of the counts to the tick
counter, the wait list, the channel table, the sense checkers, hold-down, the stations, the ports and the ranges (R3, R35, R36, R49, R72,
R91, R138, R143). -/
def Obligations.StepKeepsSound : Prop := ∀ s t : State, s.Sound → step s = .next t → t.Sound

/-- The laws of the lease records are kept by every step, whatever the rest of the state (R2, R3, R53). -/
def Obligations.StepKeepsLeaseLaws : Prop := ∀ s t : State, s.LeasesLawful → step s = .next t → t.LeasesLawful

/-- While hold-down is in force no lease is HELD, and every step keeps that, whatever the rest of the state (R138). -/
def Obligations.StepKeepsHoldDownLaw : Prop := ∀ s t : State, s.HoldDownLawful → step s = .next t → t.HoldDownLawful

/-- Every step keeps the agreement of the hold-down causes with the supply monitor and the lease clock, and the ranges of the clock
(R118, R123, R129, R138). -/
def Obligations.StepKeepsClockAndSupplyLaws : Prop :=
  ∀ s t : State, s.CausesLawful ∧ s.RangesLawful → step s = .next t → t.CausesLawful ∧ t.RangesLawful

/-- Every step keeps the laws of what HELD channels drive (R71, R77, R78). -/
def Obligations.StepKeepsDriveLaws : Prop := ∀ s t : State, s.DrivesLawful → step s = .next t → t.DrivesLawful

/-! ## The layouts of the requests -/

/-- The request that a buffer spells is the request whose bytes it holds, for every request and every value of its operands (R164,
R167). -/
def Obligations.RequestRoundTrip : Prop :=
  ∀ (i : Instr) (st : Station) (bytes : List Byte), i.wellFormed = true → i.request? = some (st, bytes) →
    decodeRequest st bytes = some i

/-- Four requests laid out byte by byte as R167 gives them, and the requests they spell. -/
def Obligations.RequestLayouts : Prop :=
  decodeRequest 1 [0x20#8, 0x01#8, 0x01#8, 0xF4#8, 0x32#8, 0x02#8, 0x02#8, 0x03#8] =
      some (.claim 1 0x01#8 0x01F4#16 0x32#8 0x02#8 [0x02#8, 0x03#8]) ∧
    decodeRequest 2 [0x21#8, 0x08#8, 0x00#8, 0x05#8] = some (.renew 2 0x08#8 0x0005#16) ∧
    decodeRequest 3 [0x23#8, 0x00#8, 0x01#8, 0x05#8, 0x03#8, 0x80#8] =
      some (.drive 3 0x00#8 0x01#8 [⟨0x05#8, 0x03#8, 0x80#8⟩]) ∧
    decodeRequest 0 [0x31#8, 0x01#8, 0x02#8, 0x08#8] = some (.configStation 0 0x01#8 0x02#8 0x08#8)

/-- The port completes a request at its last byte and not before (R146): the length of the whole is reached by the whole and by no
shorter beginning of it. -/
def Obligations.RequestEndsAtLastByte : Prop :=
  ∀ (i : Instr) (st : Station) (bytes : List Byte), i.wellFormed = true → i.request? = some (st, bytes) →
    expectedLength bytes = some bytes.length ∧ bytes.length ≤ 27 ∧
      ∀ k, k < bytes.length → expectedLength (bytes.take k) ≠ some k

/-- A request written whole into a port that is IDLE or in REPLY leaves that port QUEUED with the request's bytes, and everything else as
it was (R145, R146, R147). -/
def Obligations.WrittenRequestIsQueued : Prop :=
  ∀ (s : State) (i : Instr) (st : Station) (code : RequestCode) (fields : List Byte), i.wellFormed = true →
    i.request? = some (st, code.toByte :: fields) → s.resetCtl.active = false →
    ((s.port st).state = .idle ∨ (s.port st).state = .reply) →
    runCommands (.commandByte st code :: fields.map (.dataByte st)) s =
      some (s.setPort st
        { state := .queued, request := code.toByte :: fields, expected := some (fields.length + 1), reply := [],
          readPos := 0, error := (s.port st).error, dataBus := (s.port st).dataBus })

/-! ## The bus cycles of a port -/

/-- A command byte that names a request (R145): discarded with OVERRUN in QUEUED; otherwise it starts a request in an empty buffer,
with TRUNCATED where it ends a partial one. Nothing but the port changes. -/
def Obligations.CommandByteTaken : Prop :=
  ∀ (s : State) (p : Station) (code : RequestCode), s.resetCtl.active = false →
    exec (.commandByte p code) s = .next (s.setPort p
      (if (s.port p).state = .queued then { s.port p with error := .overrun }
       else
        { state := if expectedLength [code.toByte] = some 1 then .queued else .assembling
          request := [code.toByte]
          expected := expectedLength [code.toByte]
          reply := []
          readPos := 0
          error := if (s.port p).state = .assembling then .truncated else (s.port p).error
          dataBus := (s.port p).dataBus }))

/-- A data byte (R147): appended in ASSEMBLING, where it may complete the request; STRAY in IDLE and REPLY; OVERRUN in QUEUED. Nothing
but the port changes. -/
def Obligations.DataByteTaken : Prop :=
  ∀ (s : State) (p : Station) (b : Byte), s.resetCtl.active = false →
    exec (.dataByte p b) s = .next (s.setPort p
      (if (s.port p).state = .assembling then
        { s.port p with
          state :=
            if expectedLength ((s.port p).request ++ [b]) = some ((s.port p).request.length + 1) then .queued
            else .assembling
          request := (s.port p).request ++ [b]
          expected := expectedLength ((s.port p).request ++ [b]) }
       else { s.port p with error := if (s.port p).state = .queued then .overrun else .stray }))

/-- A command byte that names no request and is no control byte (R148): the port's own one-byte BAD_REQUEST reply, after TRUNCATED for a
partial request; OVERRUN in QUEUED. Nothing but the port changes. -/
def Obligations.UnknownCommandByteTaken : Prop :=
  ∀ (s : State) (p : Station) (b : Byte), (Instr.unknownCommandByte p b).wellFormed = true →
    s.resetCtl.active = false →
    exec (.unknownCommandByte p b) s = .next (s.setPort p
      (if (s.port p).state = .queued then { s.port p with error := .overrun }
       else
        { state := .reply
          request := []
          expected := none
          reply := [0x10#8]
          readPos := 0
          error := if (s.port p).state = .assembling then .truncated else (s.port p).error
          dataBus := (s.port p).dataBus }))

/-- ABORT (R151): the port is IDLE with everything in it discarded, and WITHDRAWN is recorded where a request was waiting. Nothing but
the port changes. -/
def Obligations.AbortTaken : Prop :=
  ∀ (s : State) (p : Station), s.resetCtl.active = false →
    exec (.abort p) s = .next (s.setPort p
      { state := .idle
        request := []
        expected := none
        reply := []
        readPos := 0
        error := if (s.port p).state = .queued then .withdrawn else (s.port p).error
        dataBus := (s.port p).dataBus })

/-- REPLAY (R150): in REPLY the read position returns to 0; elsewhere STRAY, with the port and its buffers kept. Nothing but the port
changes. -/
def Obligations.ReplayTaken : Prop :=
  ∀ (s : State) (p : Station), s.resetCtl.active = false →
    exec (.replay p) s = .next (s.setPort p
      (if (s.port p).state = .reply then { s.port p with readPos := 0 } else { s.port p with error := .stray }))

/-- The two read cycles. A status read (R154) drives the status byte, laid out as R169 gives it, with the error as it was, and clears the
error; a data read (R149) drives the next unread byte of the reply and moves on, or drives 0x00 and records EMPTY. Nothing but the port
changes. The byte driven is seen in `dataBus`, the model's own field (log entry 12). -/
def Obligations.PortReads : Prop :=
  ∀ (s : State) (p : Station), s.resetCtl.active = false →
    (exec (.statusRead p) s = .next (s.setPort p
      { s.port p with
        dataBus := some (BitVec.ofNat 8 ((s.port p).state.code +
          (if (s.port p).state = .reply ∧ (s.port p).readPos < (s.port p).reply.length then 4 else 0) +
          (if s.atnCondition p = true then 8 else 0) + (if s.causes = ⟨false, false⟩ then 0 else 16) +
          32 * (s.port p).error.code))
        error := .none })) ∧
    (∀ b, (s.port p).state = .reply → (s.port p).reply[(s.port p).readPos]? = some b →
      exec (.dataRead p) s =
        .next (s.setPort p { s.port p with readPos := (s.port p).readPos + 1, dataBus := some b })) ∧
    (((s.port p).state ≠ .reply ∨ (s.port p).reply.length ≤ (s.port p).readPos) →
      exec (.dataRead p) s = .next (s.setPort p { s.port p with error := .empty, dataBus := some 0x00#8 }))

/-- While a device reset lasts (R134, R144) the ports take no bytes, nothing is driven on a read, no request is taken, and no event of the
clock, the checkers or the supply monitor happens. -/
def Obligations.NothingHappensInReset : Prop :=
  ∀ (s : State), s.resetCtl.active = true →
    (∀ i : Instr, i.request?.isSome = true → exec i s = .next s) ∧
      (∀ p code b, exec (.commandByte p code) s = .next s ∧ exec (.dataByte p b) s = .next s ∧
        exec (.unknownCommandByte p b) s = .next s ∧ exec (.abort p) s = .next s ∧ exec (.replay p) s = .next s) ∧
      (∀ p, exec (.statusRead p) s = .next (s.setPort p { s.port p with dataBus := none }) ∧
        exec (.dataRead p) s = .next (s.setPort p { s.port p with dataBus := none })) ∧
      exec .leaseTick s = .next s ∧ exec .leaseExpiry s = .next s ∧ exec .frameStart s = .next s ∧
      exec .silenceExpiry s = .next s ∧ exec .supplyLowEvent s = .next s ∧ exec .recoveryExpiry s = .next s ∧
      (∀ n, exec (.pulseEnd n) s = .next s ∧ exec (.settleEnd n) s = .next s ∧ exec (.senseFault n) s = .next s) ∧
      (∀ n, s.outPin n = .highZ) ∧ ∀ st, s.atnAsserted st = false

/-! ## The request engine -/

/-- The arbiter serves the QUEUED ports in rotation (R156): it takes the QUEUED port that comes first after the port last served, and no
port exactly when none is QUEUED. -/
def Obligations.ArbiterServesInRotation : Prop :=
  ∀ (s : State), s.resetCtl.active = false →
    (∀ st, s.arbiterChoice = some st ↔
      (s.port st).state = .queued ∧
        ∀ p, (s.port p).state = .queued → (st - s.pointer - 1).val ≤ (p - s.pointer - 1).val) ∧
      (s.arbiterChoice = none ↔ ∀ p, (s.port p).state ≠ .queued)

/-- Every request is checked in its order (R164), and the first check that fails gives the status of its reply; a refused request changes
nothing else. -/
def Obligations.RefusedRequests : Prop :=
  ∀ (s : State) (i : Instr) (st : Station) (status : Byte), s.Ready i st →
    firstRefusal (s.refusals i) = some status → Completes i s st (refusalReply i status) s

/-! ## The queries -/

/-- READ_STATUS (R158, R168): always OK, with the twelve bytes of its layout, and nothing changed. -/
def Obligations.ReadStatusReports : Prop :=
  ∀ (s : State) (st : Station), s.Ready (.readStatus st) st →
    Completes (.readStatus st) s st
      [0x00#8,
        BitVec.ofNat 8 ((if s.causes.supply then 1 else 0) + if s.causes.clock then 2 else 0),
        (match s.supply.state with | .normal => 0x00#8 | .low => 0x01#8 | .recovering => 0x02#8),
        (match s.clock.state with | .running => 0x00#8 | .lost => 0x01#8),
        s.clock.tickCounter.extractLsb' 8 8, s.clock.tickCounter.extractLsb' 0 8,
        BitVec.ofNat 8 ((List.finRange 24).countP fun i => (s.leaseAt i).isSome),
        BitVec.ofNat 8 ((List.finRange 24).countP fun i => (s.leaseAt i).any fun l => l.state == .pending),
        BitVec.ofNat 8 ((List.finRange 32).countP fun n => (s.channel n).use == .faulted),
        (match s.lastReset with | .power => 0x01#8 | .brownout => 0x02#8 | .pin => 0x03#8),
        BitVec.ofNat 8 s.restartCount,
        (match s.clock.source with
          | .internal => BitVec.ofNat 8 s.clock.periodIndex.val
          | .external => BitVec.ofNat 8 (128 + s.clock.divisorIndex.val))]
      s

/-- QUERY_CHANNEL (R88, R168) of a channel in range: the eleven bytes of its layout, and nothing changed. -/
def Obligations.QueryChannelReports : Prop :=
  ∀ (s : State) (st : Station) (channel : Byte) (n : ChannelNo), s.Ready (.queryChannel st channel) st →
    channel.toNat = n.val →
    Completes (.queryChannel st channel) s st
      ([0x00#8, channel,
        (match (s.channel n).use with | .idle => 0x00#8 | .held _ => 0x01#8 | .faulted => 0x02#8),
        BitVec.ofNat 8 ((s.channel n).fallback.code + (if (s.channel n).senseCheck then 4 else 0) +
          16 * (s.channel n).minClass.val)] ++
        (match (s.channel n).use with
          | .held u =>
            [BitVec.ofNat 8 (8 * u.lease.slot.val + u.lease.gen.val), BitVec.ofNat 8 u.drive.modeCode,
              BitVec.ofNat 8 u.drive.value, BitVec.ofNat 8 (u.pendingPwm.getD 0), BitVec.ofNat 8 u.pulse]
          | .idle => [0xFF#8, BitVec.ofNat 8 (s.channel n).fallback.code, 0x00#8, 0x00#8, 0x00#8]
          | .faulted => [0xFF#8, BitVec.ofNat 8 (s.channel n).fallback.code, 0x00#8, 0x00#8, 0x00#8]) ++
        [BitVec.ofNat 8 ((List.finRange 24).countP fun i =>
            (s.leaseAt i).any fun l => l.state == .pending && l.channels.contains n),
          (match (s.channel n).senseLevel with | .low => 0x00#8 | .high => 0x01#8)])
      s

/-- QUERY_LEASE (R20, R168) of a handle that resolves: the lease's record in its layout, and nothing changed. -/
def Obligations.QueryLeaseReports : Prop :=
  ∀ (s : State) (st : Station) (handle : Byte) (l : Lease), s.Ready (.queryLease st handle) st →
    s.named handle = some l →
    Completes (.queryLease st handle) s st
      ([0x00#8, handle, BitVec.ofNat 8 l.holder.val] ++
        (match l.state with
          | .pending => [0x01#8, 0x00#8]
          | .held => [0x02#8, 0x00#8]
          | .lapsed cause => [0x03#8, cause.toByte]) ++
        [BitVec.ofNat 8 (l.term / 256), BitVec.ofNat 8 l.term, BitVec.ofNat 8 (l.remaining / 256),
          BitVec.ofNat 8 l.remaining, BitVec.ofNat 8 l.warnMargin, (if l.warned then 0x01#8 else 0x00#8),
          BitVec.ofNat 8 l.renewCount, l.grantTick.extractLsb' 8 8, l.grantTick.extractLsb' 0 8,
          l.renewTick.extractLsb' 8 8, l.renewTick.extractLsb' 0 8,
          BitVec.ofNat 8 ((if l.notices.granted then 1 else 0) + (if l.notices.warning then 2 else 0) +
            if l.notices.lapsed then 4 else 0),
          (if l.state = .pending then
            BitVec.ofNat 8 ((s.waitList.map Handle.toByte).idxOf handle + 1) else 0x00#8),
          BitVec.ofNat 8 l.channels.length] ++
        l.channels.map fun n => BitVec.ofNat 8 n.val)
      s

/-- LIST_LEASES (R21, R168) of a station in range: one entry for each slot of the station in ascending order, and nothing changed. -/
def Obligations.ListLeasesReports : Prop :=
  ∀ (s : State) (st : Station) (station : Byte) (target : Station), s.Ready (.listLeases st station) st →
    station.toNat = target.val →
    Completes (.listLeases st station) s st
      (0x00#8 ::
        BitVec.ofNat 8 ((List.finRange 24).countP fun i => (s.leaseAt i).any fun l => l.holder == target) ::
        (List.finRange 24).flatMap fun i =>
          match s.leaseAt i with
          | none => []
          | some l =>
            if l.holder = target then
              BitVec.ofNat 8 (8 * i.val + (s.slot i).gen.val) ::
                (match l.state with
                  | .pending => [0x01#8, BitVec.ofNat 8 (s.waitList.idxOf (s.handleAt i) + 1)]
                  | .held => [0x02#8, 0x00#8]
                  | .lapsed cause => [0x03#8, cause.toByte])
            else [])
      s

/-! ## The stations -/

/-- ATTACH (R106): a detached station is attached with every kind it may enable; an attached one is left as it is. Its class, its quota
and everything else stay. -/
def Obligations.AttachCompletes : Prop :=
  ∀ (s : State) (st : Station), s.Ready (.attach st) st →
    Completes (.attach st) s st [0x00#8]
      (if (s.station st).attached = true then s
       else s.setStation st
        { s.station st with
          attached := true
          mask := ⟨⟨true, true, true⟩, ⟨decide (st = 0), decide (st = 0), decide (st = 0)⟩⟩ })

/-- DETACH (R107): every slot of the station is freed, the station is detached with an empty mask, its class and quota kept, and one grant
evaluation follows if a HELD or PENDING lease was freed. The reply counts the slots freed. -/
def Obligations.DetachCompletes : Prop :=
  ∀ (s : State) (st : Station), s.Accepts (.detach st) st →
    ∃ v, FreeingOf s v (s.slotHas fun l => l.holder == st) ∧
      let gone := v.setStation st
        { s.station st with attached := false, mask := ⟨⟨false, false, false⟩, ⟨false, false, false⟩⟩ }
      Completes (.detach st) s st
        [0x00#8, BitVec.ofNat 8 ((List.finRange 24).countP fun i => (s.leaseAt i).any fun l => l.holder == st)]
        (if s.someLease (fun l => l.holder == st && !l.isLapsed) then gone.grantEvaluation else gone)

/-- SET_MASK (R109): the mask alone changes, and only the supervisor's takes the device kinds. -/
def Obligations.SetMaskCompletes : Prop :=
  ∀ (s : State) (st : Station) (mask : Byte), s.Accepts (.setMask st mask) st →
    Completes (.setMask st mask) s st [0x00#8]
      (s.setStation st
        { s.station st with
          mask :=
            ⟨⟨mask.getLsbD 0, mask.getLsbD 1, mask.getLsbD 2⟩,
              if st = 0 then ⟨mask.getLsbD 3, mask.getLsbD 4, mask.getLsbD 5⟩ else ⟨false, false, false⟩⟩ })

/-- POLL (R114): every notice of the station is reported and cleared, and nothing else changes. -/
def Obligations.PollCompletes : Prop :=
  ∀ (s : State) (st : Station), s.Accepts (.poll st) st →
    ∃ u, (∀ i, (u.slot i).gen = (s.slot i).gen ∧
        u.leaseAt i = (s.leaseAt i).map fun l =>
          if l.holder = st then { l with notices := ⟨false, false, false⟩ } else l) ∧
      u.deviceNotices = (if st = 0 then ⟨false, false, false⟩ else s.deviceNotices) ∧
      u.waitList = s.waitList ∧ SameChannels s u ∧ u.stations = s.stations ∧ SameClock s u ∧ SameSupply s u ∧
      SameResets s u ∧ SameOutside s u ∧
      Completes (.poll st) s st
        (0x00#8 ::
          (if st = 0 then
            BitVec.ofNat 8 ((if s.deviceNotices.fault then 8 else 0) + (if s.deviceNotices.hold then 16 else 0) +
              if s.deviceNotices.clear then 32 else 0)
           else 0x00#8) ::
          BitVec.ofNat 8 ((List.finRange 24).countP fun i =>
            (s.leaseAt i).any fun l => l.holder == st && l.notices != ⟨false, false, false⟩) ::
          (List.finRange 24).flatMap fun i =>
            match s.leaseAt i with
            | none => []
            | some l =>
              if l.holder = st ∧ l.notices ≠ ⟨false, false, false⟩ then
                [BitVec.ofNat 8 (8 * i.val + (s.slot i).gen.val),
                  BitVec.ofNat 8 ((if l.notices.granted then 1 else 0) + (if l.notices.warning then 2 else 0) +
                    if l.notices.lapsed then 4 else 0),
                  (match l.state with
                    | .pending => 0x00#8
                    | .held => 0x00#8
                    | .lapsed cause => cause.toByte)]
              else [])
        u

/-- CONFIG_STATION (R110, R111): the target's class and quota change and nothing else. -/
def Obligations.ConfigStationCompletes : Prop :=
  ∀ (s : State) (st : Station) (station cls quota : Byte) (target : Station) (c : Fin 4),
    s.Accepts (.configStation st station cls quota) st → station.toNat = target.val → cls.toNat = c.val →
    Completes (.configStation st station cls quota) s st [0x00#8]
      (s.setStation target { s.station target with cls := c, quota := quota.toNat })

/-- A station's ATN# line (R113): asserted exactly when, no device reset lasting, the station is attached and a pending notice for it is of
a kind its mask enables. -/
def Obligations.AtnFollowsNotices : Prop :=
  ∀ (s : State) (st : Station), s.atnAsserted st = true ↔
    s.resetCtl.active = false ∧ (s.station st).attached = true ∧
      ((∃ i l, s.leaseAt i = some l ∧ l.holder = st ∧
          ((l.notices.granted = true ∧ (s.station st).mask.lease.granted = true) ∨
            (l.notices.warning = true ∧ (s.station st).mask.lease.warning = true) ∨
            (l.notices.lapsed = true ∧ (s.station st).mask.lease.lapsed = true))) ∨
        (st = 0 ∧
          ((s.deviceNotices.fault = true ∧ (s.station st).mask.device.fault = true) ∨
            (s.deviceNotices.hold = true ∧ (s.station st).mask.device.hold = true) ∨
            (s.deviceNotices.clear = true ∧ (s.station st).mask.device.clear = true))))

/-! ## Claims and grant evaluation -/

/-- A claim granted at once (R28, R9, R10): the lease is created HELD in the lowest-numbered FREE slot, its channels are HELD at their
fallbacks, and nothing else changes; no GRANTED notice, no evaluation. -/
def Obligations.ClaimGrantedAtOnce : Prop :=
  ∀ (s : State) (st : Station) (options : Byte) (term : Word) (warn count : Byte) (channels : List Byte) (i : SlotNo),
    s.Accepts (.claim st options term warn count channels) st →
    s.AvailableAtOnce st (channelsOf channels) →
    s.leaseAt i = none → (∀ j, j < i → s.leaseAt j ≠ none) →
    ∃ u, GrantOf s u i (Lease.ofClaim st term warn (channelsOf channels)) ∧
      Completes (.claim st options term warn count channels) s st
        [0x01#8, BitVec.ofNat 8 (8 * i.val + (s.slot i).gen.val), 0x00#8] u

/-- A claim granted by preemption (R30, R31): every lease that holds one of its channels lapses whole with cause PREEMPTED, then the lease is
created HELD in the lowest-numbered FREE slot, and grant evaluation follows if a lease lapsed. -/
def Obligations.ClaimPreempts : Prop :=
  ∀ (s : State) (st : Station) (options : Byte) (term : Word) (warn count : Byte) (channels : List Byte) (i : SlotNo),
    s.Accepts (.claim st options term warn count channels) st →
    ¬ s.AvailableAtOnce st (channelsOf channels) →
    options.getLsbD 1 = true → s.PreemptionApplies st (channelsOf channels) →
    s.leaseAt i = none → (∀ j, j < i → s.leaseAt j ≠ none) →
    ∃ victims v u,
      (∀ k, victims k = true ↔ ∃ n ∈ channelsOf channels, (s.channel n).holding = some (s.handleAt k)) ∧
      LapseOf s v victims .preempted ∧ GrantOf v u i (Lease.ofClaim st term warn (channelsOf channels)) ∧
      Completes (.claim st options term warn count channels) s st
        [0x01#8, BitVec.ofNat 8 (8 * i.val + (s.slot i).gen.val), 0x00#8]
        (if ∃ k, victims k = true then u.grantEvaluation else u)

/-- A claim queued (R33, R36): the lease is created PENDING in the lowest-numbered FREE slot, and its entry stands after the last entry of
equal or higher class, with every entry of lower class behind it; nothing else changes. -/
def Obligations.ClaimQueued : Prop :=
  ∀ (s : State) (st : Station) (options : Byte) (term : Word) (warn count : Byte) (channels : List Byte) (i : SlotNo),
    s.Sound → s.Accepts (.claim st options term warn count channels) st →
    ¬ s.AvailableAtOnce st (channelsOf channels) →
    ¬ (options.getLsbD 1 = true ∧ s.PreemptionApplies st (channelsOf channels)) →
    s.leaseAt i = none → (∀ j, j < i → s.leaseAt j ≠ none) →
    ∃ u ahead behind, s.waitList = ahead ++ behind ∧ u.waitList = ahead ++ s.handleAt i :: behind ∧
      (∀ e ∈ ahead, ∀ c ∈ s.classOf e, (s.station st).cls ≤ c) ∧
      (∀ e ∈ behind, ∀ c ∈ s.classOf e, c < (s.station st).cls) ∧
      u.slot i = ⟨(s.slot i).gen, some (Lease.ofClaim st term warn (channelsOf channels))⟩ ∧
      (∀ j, j ≠ i → u.slot j = s.slot j) ∧ SameChannels s u ∧ SameBesideTables s u ∧
      Completes (.claim st options term warn count channels) s st
        [0x02#8, BitVec.ofNat 8 (8 * i.val + (s.slot i).gen.val), BitVec.ofNat 8 (ahead.length + 1)] u

/-- What grant evaluation leaves (R39, R40, R10): some entries of the wait list are gone from it and the rest keep their order; each lease
named by one that is gone is HELD with the GRANTED notice, its channels, which were IDLE, HELD by it at their fallbacks; every other lease
and every other channel is as it was, and so is everything else. -/
def Obligations.EvaluationGrants : Prop :=
  ∀ s : State, s.Sound →
    s.grantEvaluation.waitList.Sublist s.waitList ∧
      (∀ i, (s.grantEvaluation.slot i).gen = (s.slot i).gen) ∧
      (∀ i, s.leaseAt i = none → s.grantEvaluation.leaseAt i = none) ∧
      (∀ i l, s.leaseAt i = some l → s.handleAt i ∈ s.waitList → s.handleAt i ∉ s.grantEvaluation.waitList →
        s.grantEvaluation.leaseAt i =
            some { l.grantedAt s.clock.tickCounter with notices := { l.notices with granted := true } } ∧
          ∀ n ∈ l.channels, (s.channel n).use = .idle ∧
            s.grantEvaluation.channel n = (s.channel n).grantedTo (s.handleAt i)) ∧
      (∀ i l, s.leaseAt i = some l → (s.handleAt i ∉ s.waitList ∨ s.handleAt i ∈ s.grantEvaluation.waitList) →
        s.grantEvaluation.leaseAt i = some l) ∧
      (∀ n, (∀ i l, s.leaseAt i = some l → s.handleAt i ∈ s.waitList →
          s.handleAt i ∉ s.grantEvaluation.waitList → n ∉ l.channels) →
        s.grantEvaluation.channel n = s.channel n) ∧
      SameBesideTables s s.grantEvaluation

/-- Whom grant evaluation grants (R39): no lease while a cause is present; no lease that shares a channel with an entry ahead of it that is
not granted; and every lease that goes on waiting is blocked, by a cause, by a channel that is not IDLE, or by an entry ahead of it that
goes on waiting too and shares a channel. A second pass grants nothing further. -/
def Obligations.EvaluationIsFair : Prop :=
  ∀ s : State, s.Sound →
    (s.holdDown = true → s.grantEvaluation = s) ∧
      (∀ ahead behind h l, s.waitList = ahead ++ h :: behind → s.lookup h = some l →
        h ∉ s.grantEvaluation.waitList →
        ∀ e ∈ ahead, ∀ m, s.lookup e = some m → e ∈ s.grantEvaluation.waitList →
          ∀ n ∈ m.channels, n ∉ l.channels) ∧
      (∀ ahead behind h l, s.waitList = ahead ++ h :: behind → s.lookup h = some l →
        h ∈ s.grantEvaluation.waitList →
        s.holdDown = true ∨ (∃ n ∈ l.channels, (s.grantEvaluation.channel n).use ≠ .idle) ∨
          ∃ e ∈ ahead, e ∈ s.grantEvaluation.waitList ∧ ∃ m, s.lookup e = some m ∧ ∃ n ∈ m.channels, n ∈ l.channels) ∧
      s.grantEvaluation.grantEvaluation = s.grantEvaluation

/-! ## Renewal, release, revocation and expiry -/

/-- RENEW (R54, R55): the lease's term, remaining, warned field, renew count and renew tick change, and nothing else; the reply is the term
now in force. -/
def Obligations.RenewCompletes : Prop :=
  ∀ (s : State) (st : Station) (handle : Byte) (newTerm : Word) (i : SlotNo) (l : Lease),
    s.Accepts (.renew st handle newTerm) st → handle.toNat / 8 = i.val → s.named handle = some l →
    let term := if newTerm.toNat = 0 then l.term else newTerm.toNat
    Completes (.renew st handle newTerm) s st [0x00#8, BitVec.ofNat 8 (term / 256), BitVec.ofNat 8 term]
      (s.setSlot i
        { s.slot i with
          lease := some
            { l with
              term := term
              remaining := term
              warned := false
              renewCount := if l.renewCount < 255 then l.renewCount + 1 else 255
              renewTick := s.clock.tickCounter } })

/-- RENEW_ALL (R56): every HELD lease of the station is renewed with its present term, in one change, and no other lease; the reply counts
them. -/
def Obligations.RenewAllCompletes : Prop :=
  ∀ (s : State) (st : Station), s.Accepts (.renewAll st) st →
    ∃ u, (∀ i, (u.slot i).gen = (s.slot i).gen ∧
        u.leaseAt i = (s.leaseAt i).map fun l =>
          if l.holder = st ∧ l.state = .held then
            { l with
              remaining := l.term
              warned := false
              renewCount := if l.renewCount < 255 then l.renewCount + 1 else 255
              renewTick := s.clock.tickCounter }
          else l) ∧
      u.waitList = s.waitList ∧ SameChannels s u ∧ SameStations s u ∧ SameClock s u ∧ SameSupply s u ∧
      SameResets s u ∧ SameOutside s u ∧
      Completes (.renewAll st) s st
        [0x00#8, BitVec.ofNat 8 ((List.finRange 24).countP fun i =>
          (s.leaseAt i).any fun l => l.holder == st && l.state == .held)] u

/-- RELEASE (R57 to R60): the slot is freed whatever the lease's state, and grant evaluation follows unless the lease was LAPSED. -/
def Obligations.ReleaseCompletes : Prop :=
  ∀ (s : State) (st : Station) (handle : Byte) (i : SlotNo) (l : Lease),
    s.Accepts (.release st handle) st → handle.toNat / 8 = i.val → s.named handle = some l →
    ∃ v, FreeingOf s v (fun k => decide (k = i)) ∧
      Completes (.release st handle) s st [0x00#8] (if l.isLapsed = true then v else v.grantEvaluation)

/-- REVOKE (R61 to R63): the lease lapses with cause REVOKED, HELD or PENDING as it was, and grant evaluation follows. -/
def Obligations.RevokeCompletes : Prop :=
  ∀ (s : State) (st : Station) (handle : Byte) (i : SlotNo), s.Accepts (.revoke st handle) st →
    handle.toNat / 8 = i.val →
    ∃ v, LapseOf s v (fun k => decide (k = i)) .revoked ∧
      Completes (.revoke st handle) s st [0x00#8] v.grantEvaluation

/-- LEASE_EXPIRY (R50, R53): the HELD leases at remaining 0 lapse together with cause EXPIRED, and one grant evaluation follows. That the
expiries of a tick belong to the tick's own change is the model's reading (log entry 4). -/
def Obligations.LeaseExpiryCompletes : Prop :=
  ∀ s : State, s.resetCtl.active = false → ∃ t, exec .leaseExpiry s = .next t ∧ ExpiryOf s t

/-! ## Channels and drive -/

/-- DRIVE (R75, R78, R80, R83, R85): each HELD channel that an entry names is left as the entry's mode and value give, by the drive it had
in force; no other channel changes, and nothing else. -/
def Obligations.DriveCompletes : Prop :=
  ∀ (s : State) (st : Station) (handle count : Byte) (entries : List DriveEntry),
    s.Accepts (.drive st handle count entries) st →
    ∃ u, SameLeases s u ∧ SameBesideTables s u ∧
      (∀ e ∈ entries, ∀ n : ChannelNo, e.channel.toNat = n.val → ∀ h, (s.channel n).use = .held h →
        u.channel n = (s.channel n).nowDriving (h.afterEntry e.mode.toNat e.value.toNat)) ∧
      (∀ n : ChannelNo, (∀ e ∈ entries, e.channel.toNat ≠ n.val) → u.channel n = s.channel n) ∧
      Completes (.drive st handle count entries) s st [0x00#8] u

/-- CONFIG_CHANNEL (R86, R87, R92): the channel's fallback, sense check and minimum class change. The checker of an IDLE channel starts
afresh if what is checked has changed, and that of a FAULTED channel stays as it is; nothing else changes. -/
def Obligations.ConfigChannelCompletes : Prop :=
  ∀ (s : State) (st : Station) (channel config minClass : Byte) (n : ChannelNo) (fallback : Steady) (c : Fin 4),
    s.Accepts (.configChannel st channel config minClass) st → (s.channel n).CheckerLawful →
    channel.toNat = n.val → config.toNat % 4 = fallback.code → minClass.toNat = c.val →
    Completes (.configChannel st channel config minClass) s st [0x00#8]
      (s.setChannel n
        (if (s.channel n).use = .faulted ∨
            ((s.channel n).fallback.checked = fallback.checked ∧ (s.channel n).senseCheck = config.getLsbD 2) then
          { s.channel n with fallback := fallback, senseCheck := config.getLsbD 2, minClass := c }
         else
          { s.channel n with
            fallback := fallback
            senseCheck := config.getLsbD 2
            minClass := c
            phase := startPhase (config.getLsbD 2) fallback.checked
            settleTimer := startTimer (config.getLsbD 2) fallback.checked
            mismatchTimer := none }))

/-- The two events of the drive units. The end of a pulse that has counted down (R81) leaves the opposite steady level. A frame start
(R79) brings every pending PWM change into force and begins a frame; the other channels, and everything else, stay. That PULSE_END finds
the pulse at 0, and that it has no effect where no pulse drive stands at 0, is the model's reading (log entry 4): a lease tick ends its
own pulses. -/
def Obligations.DriveEvents : Prop :=
  ∀ s : State, s.resetCtl.active = false →
    (∀ n u level length, (s.channel n).use = .held u → u.drive = .pulse level length → u.pulse = 0 →
      exec (.pulseEnd n) s =
        .next (s.setChannel n ((s.channel n).nowDriving { u with drive := .steady (oppositeLevel level) }))) ∧
      (∀ n, (∀ u level length, (s.channel n).use = .held u → u.drive = .pulse level length → u.pulse ≠ 0) →
        exec (.pulseEnd n) s = .next s) ∧
      ∃ t, exec .frameStart s = .next t ∧
        (∀ n u duty, (s.channel n).use = .held u → u.pendingPwm = some duty →
          t.channel n = (s.channel n).nowDriving { u with drive := .pwm duty, pendingPwm := none }) ∧
        (∀ n, (∀ u, (s.channel n).use = .held u → u.pendingPwm = none) → t.channel n = s.channel n) ∧
        t.frameTime = 0 ∧ t.clock = s.clock ∧ SameLeases s t ∧ SameStations s t ∧ SameSupply s t ∧ SameResets s t ∧
        SamePorts s t ∧ SameOutside s t

/-- The output pins outside a device reset (R73, R75, R77, R80): the fallback outside HELD; in HELD a steady drive's level, a pulse's level,
and for PWM of duty d HIGH in the first d of the frame's 256 steps and LOW in the rest. -/
def Obligations.OutputPinsShowDrive : Prop :=
  ∀ (s : State) (n : ChannelNo), s.resetCtl.active = false →
    ((s.channel n).isHeld = false → s.outPin n = (s.channel n).fallback.pin) ∧
      ∀ u, (s.channel n).use = .held u →
        (∀ v, u.drive = .steady v → s.outPin n = v.pin) ∧
          (∀ level length, u.drive = .pulse level length → s.outPin n = levelPin level) ∧
          ∀ duty step, u.drive = .pwm duty → step * framePeriod s.clock.frameIndex ≤ 256 * s.frameTime →
            256 * s.frameTime < (step + 1) * framePeriod s.clock.frameIndex →
            s.outPin n = if step < duty then .high else .low

/-! ## Sense checking -/

/-- SENSE_CHANGE and SETTLE_END (R91, R93, R94). A change of the input moves WATCHING to MISMATCH on a mismatch and MISMATCH to WATCHING on
agreement, and no other phase. The end of the settle window compares. Nothing but the channel changes. -/
def Obligations.SenseEvents : Prop :=
  ∀ (s : State) (n : ChannelNo) (level : Level), s.resetCtl.active = false →
    (∀ checked, (s.channel n).checkedLevel = some checked →
      exec (.senseChange n level) s = .next (s.setChannel n
        (if (s.channel n).phase = .watching ∧ level ≠ checked then
          { s.channel n with senseLevel := level, phase := .mismatch, settleTimer := none, mismatchTimer := some 0 }
         else if (s.channel n).phase = .mismatch ∧ level = checked then
          { s.channel n with senseLevel := level, phase := .watching, settleTimer := none, mismatchTimer := none }
         else { s.channel n with senseLevel := level }))) ∧
    ((s.channel n).phase ≠ .watching → (s.channel n).phase ≠ .mismatch →
      exec (.senseChange n level) s = .next (s.setChannel n { s.channel n with senseLevel := level })) ∧
    (∀ checked, (s.channel n).phase = .settling → (s.channel n).checkedLevel = some checked →
      exec (.settleEnd n) s = .next (s.setChannel n
        (if (s.channel n).senseLevel = checked then
          { s.channel n with phase := .watching, settleTimer := none, mismatchTimer := none }
         else { s.channel n with phase := .mismatch, settleTimer := none, mismatchTimer := some 0 }))) ∧
    ((s.channel n).phase ≠ .settling → exec (.settleEnd n) s = .next s)

/-- SENSE_FAULT (R94, R95, R96). In MISMATCH on an IDLE channel the channel becomes FAULTED and FAULT is raised; on a HELD one its lease lapses
with cause FAULT too, and one grant evaluation follows. In any other phase no fault arrives. -/
def Obligations.SenseFaultCompletes : Prop :=
  ∀ (s : State) (n : ChannelNo), s.resetCtl.active = false →
    ((s.channel n).phase = .mismatch → (s.channel n).use = .idle →
      exec (.senseFault n) s = .next
        { s.setChannel n
            { s.channel n with use := .faulted, phase := .stopped, settleTimer := none, mismatchTimer := none } with
          deviceNotices := { s.deviceNotices with fault := true } }) ∧
    (∀ u, (s.channel n).phase = .mismatch → (s.channel n).use = .held u →
      ∃ v, LapseOf
          (s.setChannel n
            { s.channel n with use := .faulted, phase := .stopped, settleTimer := none, mismatchTimer := none })
          v (fun k => decide (k = u.lease.slot)) .fault ∧
        exec (.senseFault n) s = .next
          (State.grantEvaluation { v with deviceNotices := { v.deviceNotices with fault := true } })) ∧
    ((s.channel n).phase ≠ .mismatch → exec (.senseFault n) s = .next s)

/-- CLEAR_FAULT (R98): a FAULTED channel becomes IDLE with its checker started afresh, and grant evaluation follows; on any other channel
nothing changes. -/
def Obligations.ClearFaultCompletes : Prop :=
  ∀ (s : State) (st : Station) (channel : Byte) (n : ChannelNo), s.Accepts (.clearFault st channel) st →
    channel.toNat = n.val →
    Completes (.clearFault st channel) s st [0x00#8]
      (if (s.channel n).use = .faulted then (s.setChannel n (s.channel n).atFallback).grantEvaluation else s)

/-! ## The lease clock -/

/-- LEASE_TICK (R48, R50, R81, R119, R121). With source INTERNAL the prescale count begins again, and the tick is made whole, its counts
and then its expiries. That the expiries and the pulse ends of a tick belong to its own change, and that LEASE_TICK has no effect with
source EXTERNAL, where a tick comes only from a qualifying edge, is the model's reading (log entry 4). -/
def Obligations.LeaseTickCompletes : Prop :=
  ∀ s : State, s.resetCtl.active = false →
    (s.clock.source = .internal →
      ∃ t, exec .leaseTick s = .next t ∧ TickOf { s with clock := { s.clock with prescale := 0 } } t) ∧
      (s.clock.source = .external → exec .leaseTick s = .next s)

/-- An edge on TICK (R119, R120, R124). An edge that does not qualify moves the pin alone. A qualifying one restarts the silence timer and
counts toward the divisor, where it brings a lease tick; while the clock is LOST it brings the clock back and the CLOCK cause leaves. That
the tick with its expiries is made in the edge's own change is the model's reading (log entry 4), and that the command carries the edge's
direction, so that an edge that does not qualify still moves the pin, is the model's choice (log entry 10). -/
def Obligations.QualifyingEdgeCompletes : Prop :=
  ∀ (s : State) (edge : Edge), s.resetCtl.active = false →
    let pin := { s with tickPin := if edge = .rising then .high else .low }
    let silence := if s.clock.silenceLimit = 0 then none else some 0
    (¬ (s.clock.source = .external ∧ s.clock.edge = edge) → exec (.qualifyingEdge edge) s = .next pin) ∧
      (s.clock.source = .external → s.clock.edge = edge →
        (s.clock.state = .running → s.clock.prescale + 1 ≠ tickDivisor s.clock.divisorIndex →
          exec (.qualifyingEdge edge) s = .next
            { pin with clock := { s.clock with silenceTimer := silence, prescale := s.clock.prescale + 1 } }) ∧
        (s.clock.state = .running → s.clock.prescale + 1 = tickDivisor s.clock.divisorIndex →
          ∃ t, exec (.qualifyingEdge edge) s = .next t ∧
            TickOf { pin with clock := { s.clock with silenceTimer := silence, prescale := 0 } } t) ∧
        (s.clock.state = .lost → s.causes.clock = true →
          exec (.qualifyingEdge edge) s = .next
            (causesAre
              { pin with
                clock := { s.clock with state := .running, prescale := 0, silenceTimer := silence } }
              ⟨s.causes.supply, false⟩)))

/-- The expiry of the silence timer (R123, R139): the clock is LOST, its timer stopped and its prescale count kept, and the CLOCK cause enters.
While the timer is stopped there is none. -/
def Obligations.SilenceExpiryCompletes : Prop :=
  ∀ s : State, s.resetCtl.active = false →
    (s.clock.silenceTimer ≠ none →
      ∃ t, exec .silenceExpiry s = .next t ∧
        HoldEntryOf { s with clock := { s.clock with state := .lost, silenceTimer := none } } t
          ⟨s.causes.supply, true⟩ .clock) ∧
      (s.clock.silenceTimer = none → exec .silenceExpiry s = .next s)

/-- CONFIG_CLOCK (R126, R127): the settings, the prescale count at 0, the silence timer restarted or stopped, the clock RUNNING with its tick
counter kept, the CLOCK cause gone with CLEAR raised if hold-down ends, a frame start, and every settle restarted. -/
def Obligations.ConfigClockCompletes : Prop :=
  ∀ (s : State) (st : Station) (sourceEdge rate silence frame settle : Byte), s.Sound →
    s.Accepts (.configClock st sourceEdge rate silence frame settle) st →
    ∃ u, u.clock =
        { source := if sourceEdge.getLsbD 0 then .external else .internal
          periodIndex := if sourceEdge.getLsbD 0 then s.clock.periodIndex else Fin.ofNat 8 rate.toNat
          edge := if sourceEdge.getLsbD 1 then .falling else .rising
          divisorIndex := if sourceEdge.getLsbD 0 then Fin.ofNat 3 rate.toNat else s.clock.divisorIndex
          silenceLimit := silence.toNat
          prescale := 0
          silenceTimer := if sourceEdge.getLsbD 0 = true ∧ silence.toNat ≠ 0 then some 0 else none
          state := .running
          tickCounter := s.clock.tickCounter
          frameIndex := Fin.ofNat 4 frame.toNat
          settleMs := settle.toNat } ∧
      u.frameTime = 0 ∧
      (∀ n, u.channel n =
        if (s.channel n).phase = .settling ∨ (s.channel n).phase = .watching ∨ (s.channel n).phase = .mismatch then
          { s.channel n with phase := .settling, settleTimer := some 0, mismatchTimer := none }
        else s.channel n) ∧
      u.causes = ⟨s.causes.supply, false⟩ ∧
      u.deviceNotices =
        (if s.clock.state = .lost ∧ s.causes.supply = false then { s.deviceNotices with clear := true }
         else s.deviceNotices) ∧
      SameLeases s u ∧ u.stations = s.stations ∧ u.supply = s.supply ∧ SameResets s u ∧ SameOutside s u ∧
      Completes (.configClock st sourceEdge rate silence frame settle) s st [0x00#8] u

/-! ## The supply, device resets and RESTART -/

/-- The movements of the supply outside a device reset, above the brownout level (R129, R130, R131). A fall from VT or above to below VT
starts the filter; a return to VT or above cancels it; a rise takes LOW to RECOVERING with the recovery timer started and leaves the other
states. Nothing else changes but the supply itself. That an event carries the voltage the supply comes to, that one event may cross several
levels, and that SUPPLY_RISE is taken as a rise whatever the voltage was before, is the model's choice (log entry 6). -/
def Obligations.SupplyMovements : Prop :=
  ∀ (s : State) (mv : Nat), s.resetCtl = ⟨false, false, false, false, none⟩ → 2700 ≤ mv →
    (thresholdOf s.supply.threshold ≤ s.vdd → mv < thresholdOf s.supply.threshold →
      exec (.supplyBelowVt mv) s = .next { s with vdd := mv, supply := { s.supply with filter := some 0 } }) ∧
    (s.vdd < thresholdOf s.supply.threshold → mv < thresholdOf s.supply.threshold →
      exec (.supplyBelowVt mv) s = .next { s with vdd := mv }) ∧
    (thresholdOf s.supply.threshold ≤ mv →
      exec (.supplyAboveVt mv) s = .next
        { s with
          vdd := mv
          supply :=
            if s.supply.state = .low ∧ s.vdd ≤ thresholdOf s.supply.threshold + 50 ∧
                thresholdOf s.supply.threshold + 50 < mv then
              { s.supply with filter := none, state := .recovering, recoveryTimer := some 0 }
            else { s.supply with filter := none } }) ∧
    (thresholdOf s.supply.threshold + 50 < mv →
      exec (.supplyRise mv) s = .next
        { s with
          vdd := mv
          supply :=
            if s.supply.state = .low then
              { s.supply with filter := none, state := .recovering, recoveryTimer := some 0 }
            else { s.supply with filter := none } })

/-- The timed events of the supply monitor (R130, R131, R138, R139, R141). A supply-low event of a running filter takes NORMAL to LOW with
the SUPPLY cause entering, takes RECOVERING back to LOW with its timer cancelled, and has no effect in LOW; the recovery expiry takes
RECOVERING to NORMAL with the SUPPLY cause leaving, and does not occur in the other states. -/
def Obligations.SupplyMonitorEvents : Prop :=
  ∀ s : State, s.resetCtl.active = false →
    (s.supply.filter ≠ none → s.supply.state = .normal →
      ∃ t, exec .supplyLowEvent s = .next t ∧
        HoldEntryOf { s with supply := { s.supply with state := .low, recoveryTimer := none, filter := none } } t
          ⟨true, s.causes.clock⟩ .supply) ∧
    (s.supply.filter ≠ none → s.supply.state ≠ .normal →
      exec .supplyLowEvent s =
        .next { s with supply := { s.supply with state := .low, recoveryTimer := none, filter := none } }) ∧
    (s.supply.state = .recovering → s.causes.supply = true →
      exec .recoveryExpiry s = .next
        (causesAre { s with supply := { s.supply with state := .normal, recoveryTimer := none } }
          ⟨false, s.causes.clock⟩)) ∧
    (s.supply.state ≠ .recovering → exec .recoveryExpiry s = .next s)

/-- A device reset from its beginning to its end (R134, R135, R136): a fall of the supply or the RST# pin begins it; a supply below 2.80 V
after such a fall holds it; when the last condition clears the 2 ms begin; at their end every block takes its reset values, the supply
state and the recorded cause follow the supply, and the sense inputs, the pins and the queue of commands stay. The model's readings and
choices in it: the supply's condition clears above 2.80 V (log entry 7), the supply-low filter is stopped at the end of the reset (log
entry 8), the pin's commands stand for RST# low for 2 µs and for RST# high (log entry 9), and the records keep their values until
RESET_END (log entry 14). -/
def Obligations.DeviceResetCompletes : Prop :=
  ∀ s : State,
    (∀ mv, mv < 2700 → exec (.deviceReset (.supply mv)) s = .next
      { s with
        vdd := mv
        resetCtl :=
          { active := true, supplyHeld := true, metPower := s.resetCtl.metPower || decide (mv < 1800),
            metBrownout := true, release := none } }) ∧
    exec (.deviceReset .pin) s = .next
      { s with rstPin := .low, resetCtl := { s.resetCtl with active := true, release := none } } ∧
    (∀ mv, mv < 2700 → exec (.supplyBelowVt mv) s = exec (.deviceReset (.supply mv)) s) ∧
    (∀ mv, s.resetCtl.active = true → s.resetCtl.metBrownout = true → 2700 ≤ mv → mv < 2800 →
      exec (.supplyBelowVt mv) s =
        .next { s with vdd := mv, resetCtl := { s.resetCtl with supplyHeld := true, release := none } }) ∧
    (s.resetCtl.active = false ∨ s.resetCtl.supplyHeld = true →
      exec (.lastResetConditionClears .pin) s =
        .next { s with rstPin := .high, resetCtl := { s.resetCtl with release := none } }) ∧
    (∀ mv, s.resetCtl.active = true → s.rstPin = .low → 2800 < mv →
      exec (.lastResetConditionClears (.supply mv)) s =
        .next { s with vdd := mv, resetCtl := { s.resetCtl with supplyHeld := false, release := none } }) ∧
    (s.resetCtl.active = true → s.resetCtl.supplyHeld = false → s.resetCtl.release = none →
      exec (.lastResetConditionClears .pin) s =
        .next { s with rstPin := .high, resetCtl := { s.resetCtl with release := some 0 } }) ∧
    (∀ mv, s.resetCtl.active = true → s.rstPin = .high → s.resetCtl.release = none → 2800 < mv →
      exec (.lastResetConditionClears (.supply mv)) s =
        .next { s with vdd := mv, resetCtl := { s.resetCtl with supplyHeld := false, release := some 0 } }) ∧
    (s.resetCtl.release = none → exec .resetEnd s = .next s) ∧
    (s.resetCtl.release ≠ none →
      exec .resetEnd s = .next
        { State.reset with
          channels := Vector.ofFn fun n =>
            { use := .idle, fallback := .low, senseCheck := false, minClass := 0,
              senseLevel := (s.channel n).senseLevel, phase := .inactive, settleTimer := none, mismatchTimer := none }
          supply :=
            if 3000 < s.vdd then { state := .recovering, threshold := 0, recoveryTimer := some 0, filter := none }
            else { state := .low, threshold := 0, recoveryTimer := none, filter := none }
          lastReset :=
            if s.resetCtl.metPower = true then .power
            else if s.resetCtl.metBrownout = true then .brownout else .pin
          vdd := s.vdd
          rstPin := s.rstPin
          tickPin := s.tickPin
          choices := s.choices
          pending := s.pending })

/-- CONFIG_SUPPLY (R133): the threshold index is set and the supply judged against the new levels, by the table of the rule; nothing else
changes. Where the supply stands below the new VT and no filter runs, one starts in NORMAL and RECOVERING, below the old VT too, and in
LOW only if the supply stood at the old VT or above: this is the model's reading (log entry 8). -/
def Obligations.ConfigSupplyCompletes : Prop :=
  ∀ (s : State) (st : Station) (index : Byte) (k : Fin 4), s.Accepts (.configSupply st index) st →
    index.toNat = k.val →
    ∃ m, m.threshold = k ∧
      (thresholdOf k ≤ s.vdd → m.filter = none) ∧
      (s.vdd < thresholdOf k → s.supply.filter ≠ none → m.filter = s.supply.filter) ∧
      (s.vdd < thresholdOf k → s.supply.filter = none → s.supply.state ≠ .low → m.filter = some 0) ∧
      (s.vdd < thresholdOf k → s.supply.filter = none → s.supply.state = .low →
        thresholdOf s.supply.threshold ≤ s.vdd → m.filter = some 0) ∧
      (s.vdd < thresholdOf k → s.supply.filter = none → s.supply.state = .low →
        s.vdd < thresholdOf s.supply.threshold → m.filter = none) ∧
      (s.supply.state = .low → thresholdOf k + 50 < s.vdd → m.state = .recovering ∧ m.recoveryTimer = some 0) ∧
      (¬ (s.supply.state = .low ∧ thresholdOf k + 50 < s.vdd) →
        m.state = s.supply.state ∧ m.recoveryTimer = s.supply.recoveryTimer) ∧
      Completes (.configSupply st index) s st [0x00#8] { s with supply := m }

/-- RESTART (R161): every slot is freed with no evaluation, every station detached with an empty mask, the device notices cleared and the
restart count raised, staying at 255; everything else is kept. -/
def Obligations.RestartCompletes : Prop :=
  ∀ (s : State) (st : Station), s.Accepts (.restart st) st →
    ∃ v u, FreeingOf s v (fun _ => true) ∧
      SameLeases v u ∧ SameChannels v u ∧
      (∀ k, u.station k =
        { s.station k with attached := false, mask := ⟨⟨false, false, false⟩, ⟨false, false, false⟩⟩ }) ∧
      u.deviceNotices = ⟨false, false, false⟩ ∧
      u.restartCount = (if s.restartCount < 255 then s.restartCount + 1 else 255) ∧
      SameClock s u ∧ SameSupply s u ∧ u.resetCtl = s.resetCtl ∧ u.lastReset = s.lastReset ∧ SameOutside s u ∧
      Completes (.restart st) s st [0x00#8, BitVec.ofNat 8 u.restartCount] u
end

