-- ==== Sys2Proof/Laws/State.lean ====
section
/-! SUPPORT. The state's records and its named updates: what each update reads as afterwards, and that it keeps every
other field. -/

namespace Sys2Proof.Machine

open Sys2Proof

/-! ## Reading a record after its own update -/

@[simp] theorem State.slot_setSlot (s : State) (i : SlotNo) (x : Slot) (k : SlotNo) :
    (s.setSlot i x).slot k = if i = k then x else s.slot k := by
  simp only [State.slot, State.setSlot, Fin.getElem_fin, Vector.getElem_set, Fin.ext_iff]

@[simp] theorem State.slot_mapSlots (s : State) (f : SlotNo → Slot → Slot) (k : SlotNo) :
    (s.mapSlots f).slot k = f k (s.slot k) := by
  simp [State.slot, State.mapSlots]

@[simp] theorem State.channel_setChannel (s : State) (n : ChannelNo) (x : Channel) (k : ChannelNo) :
    (s.setChannel n x).channel k = if n = k then x else s.channel k := by
  simp only [State.channel, State.setChannel, Fin.getElem_fin, Vector.getElem_set, Fin.ext_iff]

@[simp] theorem State.channel_mapChannels (s : State) (f : ChannelNo → Channel → Channel) (k : ChannelNo) :
    (s.mapChannels f).channel k = f k (s.channel k) := by
  simp [State.channel, State.mapChannels]

@[simp] theorem State.station_setStation (s : State) (st : Station) (x : StationRec) (k : Station) :
    (s.setStation st x).station k = if st = k then x else s.station k := by
  simp only [State.station, State.setStation, Fin.getElem_fin, Vector.getElem_set, Fin.ext_iff]

@[simp] theorem State.station_mapStations (s : State) (f : Station → StationRec → StationRec) (k : Station) :
    (s.mapStations f).station k = f k (s.station k) := by
  simp [State.station, State.mapStations]

@[simp] theorem State.port_setPort (s : State) (p : Station) (x : Port) (k : Station) :
    (s.setPort p x).port k = if p = k then x else s.port k := by
  simp only [State.port, State.setPort, Fin.getElem_fin, Vector.getElem_set, Fin.ext_iff]

/-! ## Two states with the same record everywhere have the same table -/

theorem State.slots_ext {s t : State} (h : ∀ k, s.slot k = t.slot k) : s.slots = t.slots := by
  apply Vector.ext
  intro k hk
  exact h ⟨k, hk⟩

theorem State.channels_ext {s t : State} (h : ∀ k, s.channel k = t.channel k) : s.channels = t.channels := by
  apply Vector.ext
  intro k hk
  exact h ⟨k, hk⟩

theorem State.stations_ext {s t : State} (h : ∀ k, s.station k = t.station k) : s.stations = t.stations := by
  apply Vector.ext
  intro k hk
  exact h ⟨k, hk⟩

theorem State.ports_ext {s t : State} (h : ∀ k, s.port k = t.port k) : s.ports = t.ports := by
  apply Vector.ext
  intro k hk
  exact h ⟨k, hk⟩

/-! ## Every other field -/

@[simp] theorem State.setSlot_waitList (s : State) (i : SlotNo) (x : Slot) : (s.setSlot i x).waitList = s.waitList := rfl
@[simp] theorem State.setSlot_channels (s : State) (i : SlotNo) (x : Slot) : (s.setSlot i x).channels = s.channels := rfl
@[simp] theorem State.setSlot_stations (s : State) (i : SlotNo) (x : Slot) : (s.setSlot i x).stations = s.stations := rfl
@[simp] theorem State.setSlot_deviceNotices (s : State) (i : SlotNo) (x : Slot) : (s.setSlot i x).deviceNotices = s.deviceNotices := rfl
@[simp] theorem State.setSlot_clock (s : State) (i : SlotNo) (x : Slot) : (s.setSlot i x).clock = s.clock := rfl
@[simp] theorem State.setSlot_frameTime (s : State) (i : SlotNo) (x : Slot) : (s.setSlot i x).frameTime = s.frameTime := rfl
@[simp] theorem State.setSlot_supply (s : State) (i : SlotNo) (x : Slot) : (s.setSlot i x).supply = s.supply := rfl
@[simp] theorem State.setSlot_causes (s : State) (i : SlotNo) (x : Slot) : (s.setSlot i x).causes = s.causes := rfl
@[simp] theorem State.setSlot_resetCtl (s : State) (i : SlotNo) (x : Slot) : (s.setSlot i x).resetCtl = s.resetCtl := rfl
@[simp] theorem State.setSlot_lastReset (s : State) (i : SlotNo) (x : Slot) : (s.setSlot i x).lastReset = s.lastReset := rfl
@[simp] theorem State.setSlot_ports (s : State) (i : SlotNo) (x : Slot) : (s.setSlot i x).ports = s.ports := rfl
@[simp] theorem State.setSlot_pointer (s : State) (i : SlotNo) (x : Slot) : (s.setSlot i x).pointer = s.pointer := rfl
@[simp] theorem State.setSlot_restartCount (s : State) (i : SlotNo) (x : Slot) : (s.setSlot i x).restartCount = s.restartCount := rfl
@[simp] theorem State.setSlot_vdd (s : State) (i : SlotNo) (x : Slot) : (s.setSlot i x).vdd = s.vdd := rfl
@[simp] theorem State.setSlot_rstPin (s : State) (i : SlotNo) (x : Slot) : (s.setSlot i x).rstPin = s.rstPin := rfl
@[simp] theorem State.setSlot_tickPin (s : State) (i : SlotNo) (x : Slot) : (s.setSlot i x).tickPin = s.tickPin := rfl
@[simp] theorem State.setSlot_choices (s : State) (i : SlotNo) (x : Slot) : (s.setSlot i x).choices = s.choices := rfl
@[simp] theorem State.setSlot_pending (s : State) (i : SlotNo) (x : Slot) : (s.setSlot i x).pending = s.pending := rfl
@[simp] theorem State.setSlot_channel (s : State) (i : SlotNo) (x : Slot) (k : ChannelNo) :
    (s.setSlot i x).channel k = s.channel k := rfl
@[simp] theorem State.setSlot_station (s : State) (i : SlotNo) (x : Slot) (k : Station) :
    (s.setSlot i x).station k = s.station k := rfl
@[simp] theorem State.setSlot_port (s : State) (i : SlotNo) (x : Slot) (k : Station) :
    (s.setSlot i x).port k = s.port k := rfl

@[simp] theorem State.mapSlots_waitList (s : State) (f : SlotNo → Slot → Slot) : (s.mapSlots f).waitList = s.waitList := by rw [State.mapSlots]
@[simp] theorem State.mapSlots_channels (s : State) (f : SlotNo → Slot → Slot) : (s.mapSlots f).channels = s.channels := by rw [State.mapSlots]
@[simp] theorem State.mapSlots_stations (s : State) (f : SlotNo → Slot → Slot) : (s.mapSlots f).stations = s.stations := by rw [State.mapSlots]
@[simp] theorem State.mapSlots_deviceNotices (s : State) (f : SlotNo → Slot → Slot) : (s.mapSlots f).deviceNotices = s.deviceNotices := by rw [State.mapSlots]
@[simp] theorem State.mapSlots_clock (s : State) (f : SlotNo → Slot → Slot) : (s.mapSlots f).clock = s.clock := by rw [State.mapSlots]
@[simp] theorem State.mapSlots_frameTime (s : State) (f : SlotNo → Slot → Slot) : (s.mapSlots f).frameTime = s.frameTime := by rw [State.mapSlots]
@[simp] theorem State.mapSlots_supply (s : State) (f : SlotNo → Slot → Slot) : (s.mapSlots f).supply = s.supply := by rw [State.mapSlots]
@[simp] theorem State.mapSlots_causes (s : State) (f : SlotNo → Slot → Slot) : (s.mapSlots f).causes = s.causes := by rw [State.mapSlots]
@[simp] theorem State.mapSlots_resetCtl (s : State) (f : SlotNo → Slot → Slot) : (s.mapSlots f).resetCtl = s.resetCtl := by rw [State.mapSlots]
@[simp] theorem State.mapSlots_lastReset (s : State) (f : SlotNo → Slot → Slot) : (s.mapSlots f).lastReset = s.lastReset := by rw [State.mapSlots]
@[simp] theorem State.mapSlots_ports (s : State) (f : SlotNo → Slot → Slot) : (s.mapSlots f).ports = s.ports := by rw [State.mapSlots]
@[simp] theorem State.mapSlots_pointer (s : State) (f : SlotNo → Slot → Slot) : (s.mapSlots f).pointer = s.pointer := by rw [State.mapSlots]
@[simp] theorem State.mapSlots_restartCount (s : State) (f : SlotNo → Slot → Slot) : (s.mapSlots f).restartCount = s.restartCount := by rw [State.mapSlots]
@[simp] theorem State.mapSlots_vdd (s : State) (f : SlotNo → Slot → Slot) : (s.mapSlots f).vdd = s.vdd := by rw [State.mapSlots]
@[simp] theorem State.mapSlots_rstPin (s : State) (f : SlotNo → Slot → Slot) : (s.mapSlots f).rstPin = s.rstPin := by rw [State.mapSlots]
@[simp] theorem State.mapSlots_tickPin (s : State) (f : SlotNo → Slot → Slot) : (s.mapSlots f).tickPin = s.tickPin := by rw [State.mapSlots]
@[simp] theorem State.mapSlots_choices (s : State) (f : SlotNo → Slot → Slot) : (s.mapSlots f).choices = s.choices := by rw [State.mapSlots]
@[simp] theorem State.mapSlots_pending (s : State) (f : SlotNo → Slot → Slot) : (s.mapSlots f).pending = s.pending := by rw [State.mapSlots]
@[simp] theorem State.mapSlots_channel (s : State) (f : SlotNo → Slot → Slot) (k : ChannelNo) :
    (s.mapSlots f).channel k = s.channel k := by simp only [State.channel, State.mapSlots]
@[simp] theorem State.mapSlots_station (s : State) (f : SlotNo → Slot → Slot) (k : Station) :
    (s.mapSlots f).station k = s.station k := by simp only [State.station, State.mapSlots]
@[simp] theorem State.mapSlots_port (s : State) (f : SlotNo → Slot → Slot) (k : Station) :
    (s.mapSlots f).port k = s.port k := by simp only [State.port, State.mapSlots]

@[simp] theorem State.setChannel_slots (s : State) (n : ChannelNo) (x : Channel) : (s.setChannel n x).slots = s.slots := rfl
@[simp] theorem State.setChannel_waitList (s : State) (n : ChannelNo) (x : Channel) : (s.setChannel n x).waitList = s.waitList := rfl
@[simp] theorem State.setChannel_stations (s : State) (n : ChannelNo) (x : Channel) : (s.setChannel n x).stations = s.stations := rfl
@[simp] theorem State.setChannel_deviceNotices (s : State) (n : ChannelNo) (x : Channel) : (s.setChannel n x).deviceNotices = s.deviceNotices := rfl
@[simp] theorem State.setChannel_clock (s : State) (n : ChannelNo) (x : Channel) : (s.setChannel n x).clock = s.clock := rfl
@[simp] theorem State.setChannel_frameTime (s : State) (n : ChannelNo) (x : Channel) : (s.setChannel n x).frameTime = s.frameTime := rfl
@[simp] theorem State.setChannel_supply (s : State) (n : ChannelNo) (x : Channel) : (s.setChannel n x).supply = s.supply := rfl
@[simp] theorem State.setChannel_causes (s : State) (n : ChannelNo) (x : Channel) : (s.setChannel n x).causes = s.causes := rfl
@[simp] theorem State.setChannel_resetCtl (s : State) (n : ChannelNo) (x : Channel) : (s.setChannel n x).resetCtl = s.resetCtl := rfl
@[simp] theorem State.setChannel_lastReset (s : State) (n : ChannelNo) (x : Channel) : (s.setChannel n x).lastReset = s.lastReset := rfl
@[simp] theorem State.setChannel_ports (s : State) (n : ChannelNo) (x : Channel) : (s.setChannel n x).ports = s.ports := rfl
@[simp] theorem State.setChannel_pointer (s : State) (n : ChannelNo) (x : Channel) : (s.setChannel n x).pointer = s.pointer := rfl
@[simp] theorem State.setChannel_restartCount (s : State) (n : ChannelNo) (x : Channel) : (s.setChannel n x).restartCount = s.restartCount := rfl
@[simp] theorem State.setChannel_vdd (s : State) (n : ChannelNo) (x : Channel) : (s.setChannel n x).vdd = s.vdd := rfl
@[simp] theorem State.setChannel_rstPin (s : State) (n : ChannelNo) (x : Channel) : (s.setChannel n x).rstPin = s.rstPin := rfl
@[simp] theorem State.setChannel_tickPin (s : State) (n : ChannelNo) (x : Channel) : (s.setChannel n x).tickPin = s.tickPin := rfl
@[simp] theorem State.setChannel_choices (s : State) (n : ChannelNo) (x : Channel) : (s.setChannel n x).choices = s.choices := rfl
@[simp] theorem State.setChannel_pending (s : State) (n : ChannelNo) (x : Channel) : (s.setChannel n x).pending = s.pending := rfl
@[simp] theorem State.setChannel_slot (s : State) (n : ChannelNo) (x : Channel) (k : SlotNo) :
    (s.setChannel n x).slot k = s.slot k := rfl
@[simp] theorem State.setChannel_station (s : State) (n : ChannelNo) (x : Channel) (k : Station) :
    (s.setChannel n x).station k = s.station k := rfl
@[simp] theorem State.setChannel_port (s : State) (n : ChannelNo) (x : Channel) (k : Station) :
    (s.setChannel n x).port k = s.port k := rfl

@[simp] theorem State.mapChannels_slots (s : State) (f : ChannelNo → Channel → Channel) : (s.mapChannels f).slots = s.slots := by rw [State.mapChannels]
@[simp] theorem State.mapChannels_waitList (s : State) (f : ChannelNo → Channel → Channel) : (s.mapChannels f).waitList = s.waitList := by rw [State.mapChannels]
@[simp] theorem State.mapChannels_stations (s : State) (f : ChannelNo → Channel → Channel) : (s.mapChannels f).stations = s.stations := by rw [State.mapChannels]
@[simp] theorem State.mapChannels_deviceNotices (s : State) (f : ChannelNo → Channel → Channel) : (s.mapChannels f).deviceNotices = s.deviceNotices := by rw [State.mapChannels]
@[simp] theorem State.mapChannels_clock (s : State) (f : ChannelNo → Channel → Channel) : (s.mapChannels f).clock = s.clock := by rw [State.mapChannels]
@[simp] theorem State.mapChannels_frameTime (s : State) (f : ChannelNo → Channel → Channel) : (s.mapChannels f).frameTime = s.frameTime := by rw [State.mapChannels]
@[simp] theorem State.mapChannels_supply (s : State) (f : ChannelNo → Channel → Channel) : (s.mapChannels f).supply = s.supply := by rw [State.mapChannels]
@[simp] theorem State.mapChannels_causes (s : State) (f : ChannelNo → Channel → Channel) : (s.mapChannels f).causes = s.causes := by rw [State.mapChannels]
@[simp] theorem State.mapChannels_resetCtl (s : State) (f : ChannelNo → Channel → Channel) : (s.mapChannels f).resetCtl = s.resetCtl := by rw [State.mapChannels]
@[simp] theorem State.mapChannels_lastReset (s : State) (f : ChannelNo → Channel → Channel) : (s.mapChannels f).lastReset = s.lastReset := by rw [State.mapChannels]
@[simp] theorem State.mapChannels_ports (s : State) (f : ChannelNo → Channel → Channel) : (s.mapChannels f).ports = s.ports := by rw [State.mapChannels]
@[simp] theorem State.mapChannels_pointer (s : State) (f : ChannelNo → Channel → Channel) : (s.mapChannels f).pointer = s.pointer := by rw [State.mapChannels]
@[simp] theorem State.mapChannels_restartCount (s : State) (f : ChannelNo → Channel → Channel) : (s.mapChannels f).restartCount = s.restartCount := by rw [State.mapChannels]
@[simp] theorem State.mapChannels_vdd (s : State) (f : ChannelNo → Channel → Channel) : (s.mapChannels f).vdd = s.vdd := by rw [State.mapChannels]
@[simp] theorem State.mapChannels_rstPin (s : State) (f : ChannelNo → Channel → Channel) : (s.mapChannels f).rstPin = s.rstPin := by rw [State.mapChannels]
@[simp] theorem State.mapChannels_tickPin (s : State) (f : ChannelNo → Channel → Channel) : (s.mapChannels f).tickPin = s.tickPin := by rw [State.mapChannels]
@[simp] theorem State.mapChannels_choices (s : State) (f : ChannelNo → Channel → Channel) : (s.mapChannels f).choices = s.choices := by rw [State.mapChannels]
@[simp] theorem State.mapChannels_pending (s : State) (f : ChannelNo → Channel → Channel) : (s.mapChannels f).pending = s.pending := by rw [State.mapChannels]
@[simp] theorem State.mapChannels_slot (s : State) (f : ChannelNo → Channel → Channel) (k : SlotNo) :
    (s.mapChannels f).slot k = s.slot k := by simp only [State.slot, State.mapChannels]
@[simp] theorem State.mapChannels_station (s : State) (f : ChannelNo → Channel → Channel) (k : Station) :
    (s.mapChannels f).station k = s.station k := by simp only [State.station, State.mapChannels]
@[simp] theorem State.mapChannels_port (s : State) (f : ChannelNo → Channel → Channel) (k : Station) :
    (s.mapChannels f).port k = s.port k := by simp only [State.port, State.mapChannels]

@[simp] theorem State.setStation_slots (s : State) (st : Station) (x : StationRec) : (s.setStation st x).slots = s.slots := rfl
@[simp] theorem State.setStation_waitList (s : State) (st : Station) (x : StationRec) : (s.setStation st x).waitList = s.waitList := rfl
@[simp] theorem State.setStation_channels (s : State) (st : Station) (x : StationRec) : (s.setStation st x).channels = s.channels := rfl
@[simp] theorem State.setStation_deviceNotices (s : State) (st : Station) (x : StationRec) : (s.setStation st x).deviceNotices = s.deviceNotices := rfl
@[simp] theorem State.setStation_clock (s : State) (st : Station) (x : StationRec) : (s.setStation st x).clock = s.clock := rfl
@[simp] theorem State.setStation_frameTime (s : State) (st : Station) (x : StationRec) : (s.setStation st x).frameTime = s.frameTime := rfl
@[simp] theorem State.setStation_supply (s : State) (st : Station) (x : StationRec) : (s.setStation st x).supply = s.supply := rfl
@[simp] theorem State.setStation_causes (s : State) (st : Station) (x : StationRec) : (s.setStation st x).causes = s.causes := rfl
@[simp] theorem State.setStation_resetCtl (s : State) (st : Station) (x : StationRec) : (s.setStation st x).resetCtl = s.resetCtl := rfl
@[simp] theorem State.setStation_lastReset (s : State) (st : Station) (x : StationRec) : (s.setStation st x).lastReset = s.lastReset := rfl
@[simp] theorem State.setStation_ports (s : State) (st : Station) (x : StationRec) : (s.setStation st x).ports = s.ports := rfl
@[simp] theorem State.setStation_pointer (s : State) (st : Station) (x : StationRec) : (s.setStation st x).pointer = s.pointer := rfl
@[simp] theorem State.setStation_restartCount (s : State) (st : Station) (x : StationRec) : (s.setStation st x).restartCount = s.restartCount := rfl
@[simp] theorem State.setStation_vdd (s : State) (st : Station) (x : StationRec) : (s.setStation st x).vdd = s.vdd := rfl
@[simp] theorem State.setStation_rstPin (s : State) (st : Station) (x : StationRec) : (s.setStation st x).rstPin = s.rstPin := rfl
@[simp] theorem State.setStation_tickPin (s : State) (st : Station) (x : StationRec) : (s.setStation st x).tickPin = s.tickPin := rfl
@[simp] theorem State.setStation_choices (s : State) (st : Station) (x : StationRec) : (s.setStation st x).choices = s.choices := rfl
@[simp] theorem State.setStation_pending (s : State) (st : Station) (x : StationRec) : (s.setStation st x).pending = s.pending := rfl
@[simp] theorem State.setStation_slot (s : State) (st : Station) (x : StationRec) (k : SlotNo) :
    (s.setStation st x).slot k = s.slot k := rfl
@[simp] theorem State.setStation_channel (s : State) (st : Station) (x : StationRec) (k : ChannelNo) :
    (s.setStation st x).channel k = s.channel k := rfl
@[simp] theorem State.setStation_port (s : State) (st : Station) (x : StationRec) (k : Station) :
    (s.setStation st x).port k = s.port k := rfl

@[simp] theorem State.mapStations_slots (s : State) (f : Station → StationRec → StationRec) : (s.mapStations f).slots = s.slots := by rw [State.mapStations]
@[simp] theorem State.mapStations_waitList (s : State) (f : Station → StationRec → StationRec) : (s.mapStations f).waitList = s.waitList := by rw [State.mapStations]
@[simp] theorem State.mapStations_channels (s : State) (f : Station → StationRec → StationRec) : (s.mapStations f).channels = s.channels := by rw [State.mapStations]
@[simp] theorem State.mapStations_deviceNotices (s : State) (f : Station → StationRec → StationRec) : (s.mapStations f).deviceNotices = s.deviceNotices := by rw [State.mapStations]
@[simp] theorem State.mapStations_clock (s : State) (f : Station → StationRec → StationRec) : (s.mapStations f).clock = s.clock := by rw [State.mapStations]
@[simp] theorem State.mapStations_frameTime (s : State) (f : Station → StationRec → StationRec) : (s.mapStations f).frameTime = s.frameTime := by rw [State.mapStations]
@[simp] theorem State.mapStations_supply (s : State) (f : Station → StationRec → StationRec) : (s.mapStations f).supply = s.supply := by rw [State.mapStations]
@[simp] theorem State.mapStations_causes (s : State) (f : Station → StationRec → StationRec) : (s.mapStations f).causes = s.causes := by rw [State.mapStations]
@[simp] theorem State.mapStations_resetCtl (s : State) (f : Station → StationRec → StationRec) : (s.mapStations f).resetCtl = s.resetCtl := by rw [State.mapStations]
@[simp] theorem State.mapStations_lastReset (s : State) (f : Station → StationRec → StationRec) : (s.mapStations f).lastReset = s.lastReset := by rw [State.mapStations]
@[simp] theorem State.mapStations_ports (s : State) (f : Station → StationRec → StationRec) : (s.mapStations f).ports = s.ports := by rw [State.mapStations]
@[simp] theorem State.mapStations_pointer (s : State) (f : Station → StationRec → StationRec) : (s.mapStations f).pointer = s.pointer := by rw [State.mapStations]
@[simp] theorem State.mapStations_restartCount (s : State) (f : Station → StationRec → StationRec) : (s.mapStations f).restartCount = s.restartCount := by rw [State.mapStations]
@[simp] theorem State.mapStations_vdd (s : State) (f : Station → StationRec → StationRec) : (s.mapStations f).vdd = s.vdd := by rw [State.mapStations]
@[simp] theorem State.mapStations_rstPin (s : State) (f : Station → StationRec → StationRec) : (s.mapStations f).rstPin = s.rstPin := by rw [State.mapStations]
@[simp] theorem State.mapStations_tickPin (s : State) (f : Station → StationRec → StationRec) : (s.mapStations f).tickPin = s.tickPin := by rw [State.mapStations]
@[simp] theorem State.mapStations_choices (s : State) (f : Station → StationRec → StationRec) : (s.mapStations f).choices = s.choices := by rw [State.mapStations]
@[simp] theorem State.mapStations_pending (s : State) (f : Station → StationRec → StationRec) : (s.mapStations f).pending = s.pending := by rw [State.mapStations]
@[simp] theorem State.mapStations_slot (s : State) (f : Station → StationRec → StationRec) (k : SlotNo) :
    (s.mapStations f).slot k = s.slot k := by simp only [State.slot, State.mapStations]
@[simp] theorem State.mapStations_channel (s : State) (f : Station → StationRec → StationRec) (k : ChannelNo) :
    (s.mapStations f).channel k = s.channel k := by simp only [State.channel, State.mapStations]
@[simp] theorem State.mapStations_port (s : State) (f : Station → StationRec → StationRec) (k : Station) :
    (s.mapStations f).port k = s.port k := by simp only [State.port, State.mapStations]

@[simp] theorem State.setPort_slots (s : State) (p : Station) (x : Port) : (s.setPort p x).slots = s.slots := rfl
@[simp] theorem State.setPort_waitList (s : State) (p : Station) (x : Port) : (s.setPort p x).waitList = s.waitList := rfl
@[simp] theorem State.setPort_channels (s : State) (p : Station) (x : Port) : (s.setPort p x).channels = s.channels := rfl
@[simp] theorem State.setPort_stations (s : State) (p : Station) (x : Port) : (s.setPort p x).stations = s.stations := rfl
@[simp] theorem State.setPort_deviceNotices (s : State) (p : Station) (x : Port) : (s.setPort p x).deviceNotices = s.deviceNotices := rfl
@[simp] theorem State.setPort_clock (s : State) (p : Station) (x : Port) : (s.setPort p x).clock = s.clock := rfl
@[simp] theorem State.setPort_frameTime (s : State) (p : Station) (x : Port) : (s.setPort p x).frameTime = s.frameTime := rfl
@[simp] theorem State.setPort_supply (s : State) (p : Station) (x : Port) : (s.setPort p x).supply = s.supply := rfl
@[simp] theorem State.setPort_causes (s : State) (p : Station) (x : Port) : (s.setPort p x).causes = s.causes := rfl
@[simp] theorem State.setPort_resetCtl (s : State) (p : Station) (x : Port) : (s.setPort p x).resetCtl = s.resetCtl := rfl
@[simp] theorem State.setPort_lastReset (s : State) (p : Station) (x : Port) : (s.setPort p x).lastReset = s.lastReset := rfl
@[simp] theorem State.setPort_pointer (s : State) (p : Station) (x : Port) : (s.setPort p x).pointer = s.pointer := rfl
@[simp] theorem State.setPort_restartCount (s : State) (p : Station) (x : Port) : (s.setPort p x).restartCount = s.restartCount := rfl
@[simp] theorem State.setPort_vdd (s : State) (p : Station) (x : Port) : (s.setPort p x).vdd = s.vdd := rfl
@[simp] theorem State.setPort_rstPin (s : State) (p : Station) (x : Port) : (s.setPort p x).rstPin = s.rstPin := rfl
@[simp] theorem State.setPort_tickPin (s : State) (p : Station) (x : Port) : (s.setPort p x).tickPin = s.tickPin := rfl
@[simp] theorem State.setPort_choices (s : State) (p : Station) (x : Port) : (s.setPort p x).choices = s.choices := rfl
@[simp] theorem State.setPort_pending (s : State) (p : Station) (x : Port) : (s.setPort p x).pending = s.pending := rfl
@[simp] theorem State.setPort_slot (s : State) (p : Station) (x : Port) (k : SlotNo) :
    (s.setPort p x).slot k = s.slot k := rfl
@[simp] theorem State.setPort_channel (s : State) (p : Station) (x : Port) (k : ChannelNo) :
    (s.setPort p x).channel k = s.channel k := rfl
@[simp] theorem State.setPort_station (s : State) (p : Station) (x : Port) (k : Station) :
    (s.setPort p x).station k = s.station k := rfl

end Sys2Proof.Machine
end

