-- ==== Sys2Proof/Laws/Ops.lean ====
section
/-! SUPPORT. What each shared operation does, said once: the checker's start, a lapse, a freeing, a grant, the pass of grant
evaluation, and the entry and end of hold-down. -/

namespace Sys2Proof.Machine

open Sys2Proof

/-! ## What a change keeps -/

@[refl] theorem SameBesideTables.refl (s : State) : SameBesideTables s s := by
  simp only [SameBesideTables, SameStations, SameClock, SameSupply, SameResets, SamePorts, SameOutside, and_self]

@[trans] theorem SameBesideTables.trans {s t u : State} (h : SameBesideTables s t) (k : SameBesideTables t u) :
    SameBesideTables s u := by
  simp only [SameBesideTables, SameStations, SameClock, SameSupply, SameResets, SamePorts, SameOutside] at h k ⊢
  simp only [h, k, and_self]

@[refl] theorem SameBesidePorts.refl (s : State) : SameBesidePorts s s := by
  simp only [SameBesidePorts, SameLeases, SameChannels, SameStations, SameClock, SameSupply, SameResets, SameOutside,
    and_self]

/-! ## The sense checker -/

@[simp] theorem Channel.startChecking_use (c : Channel) : c.startChecking.use = c.use := by
  unfold Channel.startChecking; repeat' split
  all_goals rfl

@[simp] theorem Channel.startChecking_fallback (c : Channel) : c.startChecking.fallback = c.fallback := by
  unfold Channel.startChecking; repeat' split
  all_goals rfl

@[simp] theorem Channel.startChecking_senseCheck (c : Channel) : c.startChecking.senseCheck = c.senseCheck := by
  unfold Channel.startChecking; repeat' split
  all_goals rfl

@[simp] theorem Channel.startChecking_minClass (c : Channel) : c.startChecking.minClass = c.minClass := by
  unfold Channel.startChecking; repeat' split
  all_goals rfl

@[simp] theorem Channel.startChecking_senseLevel (c : Channel) : c.startChecking.senseLevel = c.senseLevel := by
  unfold Channel.startChecking; repeat' split
  all_goals rfl

/-- A hand-over to the checker keeps everything but the checker. -/
theorem Channel.recheck_kept (old new : Channel) :
    (Channel.recheck old new).use = new.use ∧ (Channel.recheck old new).fallback = new.fallback ∧
      (Channel.recheck old new).senseCheck = new.senseCheck ∧ (Channel.recheck old new).minClass = new.minClass ∧
      (Channel.recheck old new).senseLevel = new.senseLevel := by
  unfold Channel.recheck; split <;> simp

/-- The return to fallback in the terms of the claims (R13, R92). -/
theorem Channel.toFallback_eq (c : Channel) : c.toFallback = c.atFallback := by
  obtain ⟨use, fallback, senseCheck, minClass, senseLevel, phase, settle, mismatch⟩ := c
  cases senseCheck <;> cases fallback <;> rfl

/-- A fault leaves the channel FAULTED and its checker STOPPED (R95, R96). -/
theorem Channel.fault_eq (c : Channel) :
    c.fault = { c with use := .faulted, phase := .stopped, settleTimer := none, mismatchTimer := none } := rfl

/-- The grant of a channel in the terms of the claims (R10). -/
theorem Channel.grant_eq (h : Handle) (c : Channel) : c.grant h = c.grantedTo h := rfl

/-- The grant of a lease in the terms of the claims (R10). -/
theorem Lease.grant_eq (tick : Word) (l : Lease) : l.grant tick = l.grantedAt tick := rfl

/-- The lapse of a lease in the terms of the claims (R11). -/
theorem Lease.lapse_eq (cause : LapseCause) (l : Lease) :
    l.lapse cause = if l.isLapsed = false then l.lapsedWith cause else l := by
  obtain ⟨holder, state, rest⟩ := l
  cases state <;> rfl

/-! ## Properties of slots -/

theorem State.slotHas_iff (s : State) (p : Lease → Bool) (i : SlotNo) :
    s.slotHas p i = true ↔ ∃ l, s.leaseAt i = some l ∧ p l = true := by
  unfold State.slotHas; cases s.leaseAt i <;> simp

theorem State.listedHeld_iff (s : State) (p : SlotNo → Bool) (n : ChannelNo) :
    s.listedHeld p n = true ↔ ∃ i, p i = true ∧ ∃ l, s.leaseAt i = some l ∧ l.state = .held ∧ n ∈ l.channels := by
  simp [State.listedHeld, State.slotHas_iff, Lease.isHeld]

theorem State.inHeldSlot_iff (s : State) (p : SlotNo → Bool) (n : ChannelNo) :
    s.InHeldSlot p n ↔ (s.listedHeld p n && (s.channel n).isHeld) = true := by
  rw [Bool.and_eq_true, State.listedHeld_iff]; exact and_comm

/-! ## Leaving HELD and PENDING -/

theorem State.leave_channel (s : State) (p : SlotNo → Bool) (n : ChannelNo) :
    (s.leave p).channel n =
      if s.listedHeld p n && (s.channel n).isHeld then (s.channel n).toFallback else s.channel n := by
  simp only [State.leave, State.channel, State.mapChannels, Fin.getElem_fin, Vector.getElem_ofFn, Fin.eta]

@[simp] theorem State.leave_slots (s : State) (p : SlotNo → Bool) : (s.leave p).slots = s.slots := by
  simp only [State.leave, State.mapChannels]

@[simp] theorem State.leave_slot (s : State) (p : SlotNo → Bool) (i : SlotNo) : (s.leave p).slot i = s.slot i := by
  simp only [State.slot, State.leave_slots]

theorem State.leave_tables (s : State) (p : SlotNo → Bool) : LeavesTables s (s.leave p) p := by
  refine ⟨fun n h => ?_, fun n h => ?_, ?_⟩
  · rw [State.leave_channel, if_pos ((s.inHeldSlot_iff p n).1 h), Channel.toFallback_eq]
  · rw [State.leave_channel, if_neg fun k => h ((s.inHeldSlot_iff p n).2 k)]
  · simp only [State.leave, State.mapChannels, SameBesideTables, SameStations, SameClock, SameSupply, SameResets, SamePorts, SameOutside,
      and_self]

theorem LeavesTables.mapSlots {s u : State} {p : SlotNo → Bool} (h : LeavesTables s u p)
    (f : SlotNo → Slot → Slot) : LeavesTables s (u.mapSlots f) p := by
  simp only [LeavesTables, SameBesideTables, SameStations, SameClock, SameSupply, SameResets, SamePorts, SameOutside,
    State.mapSlots_channel, State.mapSlots_waitList, State.mapSlots_stations, State.mapSlots_deviceNotices,
    State.mapSlots_clock, State.mapSlots_frameTime, State.mapSlots_supply, State.mapSlots_causes,
    State.mapSlots_resetCtl, State.mapSlots_lastReset, State.mapSlots_restartCount, State.mapSlots_ports,
    State.mapSlots_pointer, State.mapSlots_vdd, State.mapSlots_rstPin, State.mapSlots_tickPin,
    State.mapSlots_choices, State.mapSlots_pending] at h ⊢
  exact h

/-! ## A lapse -/

theorem State.lapse_slot (s : State) (p : SlotNo → Bool) (cause : LapseCause) (i : SlotNo) :
    (s.lapse p cause).slot i = if p i then (s.slot i).lapse cause else s.slot i := by
  simp [State.lapse]

/-- Everything a lapse does (R11, R13, R14, R16). -/
theorem State.lapse_spec (s : State) (p : SlotNo → Bool) (cause : LapseCause) :
    LapseOf s (s.lapse p cause) p cause := by
  refine ⟨(s.leave_tables p).mapSlots _, fun i => ?_, fun i => ?_⟩
  · rw [State.lapse_slot]; split <;> rfl
  · rw [State.leaseAt, State.lapse_slot]
    by_cases h : p i = true
    · simp only [h, if_true, Slot.lapse, State.leaseAt, true_and]
      exact congrArg (fun f => Option.map f _) (funext fun l => Lease.lapse_eq cause l)
    · simp [h, State.leaseAt]

/-! ## A freeing -/

theorem State.free_slot (s : State) (p : SlotNo → Bool) (i : SlotNo) :
    (s.free p).slot i = if p i then (s.slot i).free else s.slot i := by
  simp [State.free]

/-- Everything a freeing does (R6, R12, R13, R14, R16). -/
theorem State.free_spec (s : State) (p : SlotNo → Bool) : FreeingOf s (s.free p) p := by
  refine ⟨(s.leave_tables p).mapSlots _, fun i => ⟨fun h => ?_, fun h => ?_⟩⟩
  · rw [State.leaseAt, State.free_slot, if_pos h, State.leaseAt]
    unfold Slot.free
    cases hl : (s.slot i).lease <;> simp [hl]
  · rw [State.free_slot, h]; rfl

/-! ## A grant -/

theorem State.makeHeld_eq {s : State} {i : SlotNo} {l : Lease} (h : s.leaseAt i = some l) :
    s.makeHeld i =
      (s.setSlot i { s.slot i with lease := some (l.grantedAt s.clock.tickCounter) }).mapChannels fun n c =>
        if n ∈ l.channels then c.grantedTo (s.handleAt i) else c := by
  simp [State.makeHeld, h, Lease.grant_eq, Channel.grant_eq]

theorem State.makeHeld_slot {s : State} {i : SlotNo} {l : Lease} (h : s.leaseAt i = some l) (k : SlotNo) :
    (s.makeHeld i).slot k =
      if i = k then { s.slot i with lease := some (l.grantedAt s.clock.tickCounter) } else s.slot k := by
  simp [State.makeHeld_eq h]

theorem State.makeHeld_channel {s : State} {i : SlotNo} {l : Lease} (h : s.leaseAt i = some l) (n : ChannelNo) :
    (s.makeHeld i).channel n = if n ∈ l.channels then (s.channel n).grantedTo (s.handleAt i) else s.channel n := by
  simp [State.makeHeld_eq h]

/-- A grant touches the lease table and the channel table alone. -/
theorem State.makeHeld_frame (s : State) (i : SlotNo) :
    (s.makeHeld i).waitList = s.waitList ∧ SameBesideTables s (s.makeHeld i) := by
  cases h : s.leaseAt i with
  | none => simp only [State.makeHeld, h, true_and]; exact SameBesideTables.refl s
  | some l =>
    rw [State.makeHeld_eq h]
    simp [SameBesideTables, SameStations, SameClock, SameSupply, SameResets, SamePorts, SameOutside]

/-- A grant from the wait list touches the lease table, the wait list and the channel table alone. -/
theorem State.grantWaiting_frame (s : State) (h : Handle) :
    SameBesideTables s (s.grantWaiting h) := by
  have f := s.makeHeld_frame h.slot
  simp only [State.grantWaiting, State.mapSlots]
  exact f.2

theorem State.grantWaiting_slot {s : State} {h : Handle} {l : Lease} (hl : s.leaseAt h.slot = some l) (k : SlotNo) :
    (s.grantWaiting h).slot k =
      if h.slot = k then
        { s.slot k with
          lease := some { l.grantedAt s.clock.tickCounter with notices := { l.notices with granted := true } } }
      else s.slot k := by
  have e : (s.grantWaiting h).slot k = ((s.makeHeld h.slot).mapSlots fun i x =>
      if i = h.slot then
        { x with lease := x.lease.map fun l => { l with notices := { l.notices with granted := true } } }
      else x).slot k := by
    simp only [State.grantWaiting, State.slot]
  rw [e, State.slot_mapSlots, State.makeHeld_slot hl]
  by_cases hk : h.slot = k
  · subst hk; simp [Lease.grantedAt]
  · simp [hk, Ne.symm hk]

theorem State.grantWaiting_channel {s : State} {h : Handle} {l : Lease} (hl : s.leaseAt h.slot = some l)
    (n : ChannelNo) :
    (s.grantWaiting h).channel n =
      if n ∈ l.channels then (s.channel n).grantedTo (s.handleAt h.slot) else s.channel n := by
  have e : (s.grantWaiting h).channel n = (s.makeHeld h.slot).channel n := by
    simp only [State.grantWaiting, State.channel, State.mapSlots]
  rw [e, State.makeHeld_channel hl]

@[simp] theorem State.grantWaiting_waitList (s : State) (h : Handle) :
    (s.grantWaiting h).waitList = s.waitList.erase h := by
  simp only [State.grantWaiting]

/-! ## Grant evaluation -/

/-- What every grant of the pass keeps, the pass keeps. -/
theorem evaluationPass_keeps {P : State → Prop}
    (grant : ∀ (s : State) (h : Handle) (l : Lease) (passed : List ChannelNo),
      s.lookup h = some l → s.grantable passed l = true → P s → P (s.grantWaiting h)) :
    ∀ (entries : List Handle) (passed : List ChannelNo) (s : State), P s → P (evaluationPass entries passed s)
  | [], _, _, hs => hs
  | h :: rest, passed, s, hs => by
    unfold evaluationPass
    split
    · exact evaluationPass_keeps grant rest passed s hs
    · next l hl =>
      split
      · next hg => exact evaluationPass_keeps grant rest passed _ (grant s h l passed hl hg hs)
      · exact evaluationPass_keeps grant rest _ s hs

/-- What every grant keeps, grant evaluation keeps. -/
theorem State.grantEvaluation_keeps {P : State → Prop}
    (grant : ∀ (s : State) (h : Handle) (l : Lease) (passed : List ChannelNo),
      s.lookup h = some l → s.grantable passed l = true → P s → P (s.grantWaiting h))
    (s : State) (hs : P s) : P s.grantEvaluation :=
  evaluationPass_keeps grant s.waitList [] s hs

/-- Grant evaluation touches the lease table, the wait list and the channel table alone. -/
theorem State.grantEvaluation_frame (s : State) : SameBesideTables s s.grantEvaluation :=
  State.grantEvaluation_keeps (P := SameBesideTables s)
    (fun t h _ _ _ _ ht => ht.trans (t.grantWaiting_frame h)) s (SameBesideTables.refl s)

/-- A change that may trigger grant evaluation touches beside it what grant evaluation touches. -/
theorem State.evaluateIf_frame (s : State) (b : Bool) :
    SameBesideTables s (s.evaluateIf b) := by
  cases b
  · simp only [State.evaluateIf, Bool.false_eq_true, if_false]; exact SameBesideTables.refl s
  · simpa only [State.evaluateIf, if_true] using s.grantEvaluation_frame

/-- With a cause present a pass grants nothing (R42). -/
theorem evaluationPass_held {s : State} (h : s.causes.isEmpty = false) :
    ∀ (entries : List Handle) (passed : List ChannelNo), evaluationPass entries passed s = s
  | [], _ => rfl
  | e :: rest, passed => by
    unfold evaluationPass
    split
    · exact evaluationPass_held h rest passed
    · simp only [State.grantable, h, Bool.false_and, Bool.false_eq_true, if_false]
      exact evaluationPass_held h rest _

/-! ## Hold-down -/

/-- The entry of hold-down (R139). -/
theorem State.enterHold_first {s : State} (k : HoldCause) (h : s.causes.isEmpty = true) :
    s.enterHold k =
      { s.lapse (s.slotHas Lease.isHeld) k.lapseCause with
        causes := s.causes.put k true, deviceNotices := { s.deviceNotices with hold := true } } := by
  simp only [State.enterHold, h, if_true]

/-- A cause that joins (R139). -/
theorem State.enterHold_joins {s : State} (k : HoldCause) (h : s.causes.isEmpty = false) :
    s.enterHold k = { s with causes := s.causes.put k true } := by
  simp only [State.enterHold, h, Bool.false_eq_true, if_false]

/-- The end of hold-down (R141). -/
theorem State.leaveHold_last {s : State} (k : HoldCause) (h : s.causes.isEmpty = false)
    (he : (s.causes.put k false).isEmpty = true) :
    s.leaveHold k =
      State.grantEvaluation
        { s with
          causes := s.causes.put k false, deviceNotices := { s.deviceNotices with clear := true } } := by
  simp only [State.leaveHold, h, he, Bool.not_false, Bool.and_self, if_true]

/-- A cause that leaves while the other stays (R138). -/
theorem State.leaveHold_stays {s : State} (k : HoldCause) (he : (s.causes.put k false).isEmpty = false) :
    s.leaveHold k = { s with causes := s.causes.put k false } := by
  simp only [State.leaveHold, he, Bool.and_false, Bool.false_eq_true, if_false]

end Sys2Proof.Machine
end

