-- ==== Sys2Proof/Laws/Engine.lean ====
section
/-! SUPPORT. The engine's take: that it always answers, what it is when the request is ready, what the first and last steps of
a take keep, and the lemma by which a request is shown to complete. -/

namespace Sys2Proof.Machine

open Sys2Proof

/-! ## The first and the last step of a take -/

@[simp] theorem State.beginTake_slots (s : State) (st : Station) : (s.beginTake st).slots = s.slots := rfl
@[simp] theorem State.beginTake_waitList (s : State) (st : Station) : (s.beginTake st).waitList = s.waitList := rfl
@[simp] theorem State.beginTake_channels (s : State) (st : Station) : (s.beginTake st).channels = s.channels := rfl
@[simp] theorem State.beginTake_stations (s : State) (st : Station) : (s.beginTake st).stations = s.stations := rfl
@[simp] theorem State.beginTake_deviceNotices (s : State) (st : Station) : (s.beginTake st).deviceNotices = s.deviceNotices := rfl
@[simp] theorem State.beginTake_clock (s : State) (st : Station) : (s.beginTake st).clock = s.clock := rfl
@[simp] theorem State.beginTake_frameTime (s : State) (st : Station) : (s.beginTake st).frameTime = s.frameTime := rfl
@[simp] theorem State.beginTake_supply (s : State) (st : Station) : (s.beginTake st).supply = s.supply := rfl
@[simp] theorem State.beginTake_causes (s : State) (st : Station) : (s.beginTake st).causes = s.causes := rfl
@[simp] theorem State.beginTake_resetCtl (s : State) (st : Station) : (s.beginTake st).resetCtl = s.resetCtl := rfl
@[simp] theorem State.beginTake_lastReset (s : State) (st : Station) : (s.beginTake st).lastReset = s.lastReset := rfl
@[simp] theorem State.beginTake_restartCount (s : State) (st : Station) : (s.beginTake st).restartCount = s.restartCount := rfl
@[simp] theorem State.beginTake_vdd (s : State) (st : Station) : (s.beginTake st).vdd = s.vdd := rfl
@[simp] theorem State.beginTake_rstPin (s : State) (st : Station) : (s.beginTake st).rstPin = s.rstPin := rfl
@[simp] theorem State.beginTake_tickPin (s : State) (st : Station) : (s.beginTake st).tickPin = s.tickPin := rfl
@[simp] theorem State.beginTake_choices (s : State) (st : Station) : (s.beginTake st).choices = s.choices := rfl
@[simp] theorem State.beginTake_pending (s : State) (st : Station) : (s.beginTake st).pending = s.pending := rfl
@[simp] theorem State.beginTake_pointer (s : State) (st : Station) : (s.beginTake st).pointer = st := rfl

@[simp] theorem State.beginTake_slot (s : State) (st : Station) (k : SlotNo) :
    (s.beginTake st).slot k = s.slot k := rfl
@[simp] theorem State.beginTake_channel (s : State) (st : Station) (k : ChannelNo) :
    (s.beginTake st).channel k = s.channel k := rfl
@[simp] theorem State.beginTake_station (s : State) (st : Station) (k : Station) :
    (s.beginTake st).station k = s.station k := rfl
@[simp] theorem State.beginTake_leaseAt (s : State) (st : Station) (k : SlotNo) :
    (s.beginTake st).leaseAt k = s.leaseAt k := rfl
@[simp] theorem State.beginTake_handleAt (s : State) (st : Station) (k : SlotNo) :
    (s.beginTake st).handleAt k = s.handleAt k := rfl
@[simp] theorem State.beginTake_lookup (s : State) (st : Station) (h : Handle) :
    (s.beginTake st).lookup h = s.lookup h := rfl
@[simp] theorem State.beginTake_slotHas (s : State) (st : Station) (q : Lease → Bool) (k : SlotNo) :
    (s.beginTake st).slotHas q k = s.slotHas q k := rfl
@[simp] theorem State.beginTake_anyLease (s : State) (st : Station) (q : Lease → Bool) :
    (s.beginTake st).anyLease q = s.anyLease q := rfl
@[simp] theorem State.beginTake_countLeases (s : State) (st : Station) (q : Lease → Bool) :
    (s.beginTake st).countLeases q = s.countLeases q := rfl
@[simp] theorem State.beginTake_usedSlots (s : State) (st : Station) (k : Station) :
    (s.beginTake st).usedSlots k = s.usedSlots k := rfl
@[simp] theorem State.beginTake_lowestFree (s : State) (st : Station) :
    (s.beginTake st).lowestFree = s.lowestFree  := rfl
@[simp] theorem State.beginTake_waitPosition (s : State) (st : Station) (h : Handle) :
    (s.beginTake st).waitPosition h = s.waitPosition h := rfl
@[simp] theorem State.beginTake_waitingCount (s : State) (st : Station) (n : ChannelNo) :
    (s.beginTake st).waitingCount n = s.waitingCount n := rfl
@[simp] theorem State.beginTake_faultedCount (s : State) (st : Station) :
    (s.beginTake st).faultedCount = s.faultedCount  := rfl
@[simp] theorem State.beginTake_holdDown (s : State) (st : Station) :
    (s.beginTake st).holdDown = s.holdDown  := rfl
@[simp] theorem State.beginTake_detached (s : State) (st : Station) (k : Station) :
    (s.beginTake st).detached k = s.detached k := rfl
@[simp] theorem State.beginTake_classOf (s : State) (st : Station) (h : Handle) :
    (s.beginTake st).classOf h = s.classOf h := rfl
@[simp] theorem State.beginTake_hasPending (s : State) (st : Station) (k : Station) :
    (s.beginTake st).hasPending k = s.hasPending k := rfl
@[simp] theorem State.beginTake_channelInUse (s : State) (st : Station) (n : ChannelNo) :
    (s.beginTake st).channelInUse n = s.channelInUse n := rfl
@[simp] theorem State.beginTake_anyInForce (s : State) (st : Station) :
    (s.beginTake st).anyInForce = s.anyInForce  := rfl
@[simp] theorem State.beginTake_anyActive (s : State) (st : Station) (q : SlotNo → Bool) :
    (s.beginTake st).anyActive q = s.anyActive q := rfl

@[simp] theorem State.placeReply_slots (s : State) (st : Station) (reply : List Byte) :
    (s.placeReply st reply).slots = s.slots := rfl
@[simp] theorem State.placeReply_waitList (s : State) (st : Station) (reply : List Byte) :
    (s.placeReply st reply).waitList = s.waitList := rfl
@[simp] theorem State.placeReply_channels (s : State) (st : Station) (reply : List Byte) :
    (s.placeReply st reply).channels = s.channels := rfl
@[simp] theorem State.placeReply_stations (s : State) (st : Station) (reply : List Byte) :
    (s.placeReply st reply).stations = s.stations := rfl
@[simp] theorem State.placeReply_deviceNotices (s : State) (st : Station) (reply : List Byte) :
    (s.placeReply st reply).deviceNotices = s.deviceNotices := rfl
@[simp] theorem State.placeReply_clock (s : State) (st : Station) (reply : List Byte) :
    (s.placeReply st reply).clock = s.clock := rfl
@[simp] theorem State.placeReply_frameTime (s : State) (st : Station) (reply : List Byte) :
    (s.placeReply st reply).frameTime = s.frameTime := rfl
@[simp] theorem State.placeReply_supply (s : State) (st : Station) (reply : List Byte) :
    (s.placeReply st reply).supply = s.supply := rfl
@[simp] theorem State.placeReply_causes (s : State) (st : Station) (reply : List Byte) :
    (s.placeReply st reply).causes = s.causes := rfl
@[simp] theorem State.placeReply_resetCtl (s : State) (st : Station) (reply : List Byte) :
    (s.placeReply st reply).resetCtl = s.resetCtl := rfl
@[simp] theorem State.placeReply_lastReset (s : State) (st : Station) (reply : List Byte) :
    (s.placeReply st reply).lastReset = s.lastReset := rfl
@[simp] theorem State.placeReply_restartCount (s : State) (st : Station) (reply : List Byte) :
    (s.placeReply st reply).restartCount = s.restartCount := rfl
@[simp] theorem State.placeReply_vdd (s : State) (st : Station) (reply : List Byte) :
    (s.placeReply st reply).vdd = s.vdd := rfl
@[simp] theorem State.placeReply_rstPin (s : State) (st : Station) (reply : List Byte) :
    (s.placeReply st reply).rstPin = s.rstPin := rfl
@[simp] theorem State.placeReply_tickPin (s : State) (st : Station) (reply : List Byte) :
    (s.placeReply st reply).tickPin = s.tickPin := rfl
@[simp] theorem State.placeReply_choices (s : State) (st : Station) (reply : List Byte) :
    (s.placeReply st reply).choices = s.choices := rfl
@[simp] theorem State.placeReply_pending (s : State) (st : Station) (reply : List Byte) :
    (s.placeReply st reply).pending = s.pending := rfl
@[simp] theorem State.placeReply_pointer (s : State) (st : Station) (reply : List Byte) :
    (s.placeReply st reply).pointer = s.pointer := rfl

@[simp] theorem State.port_beginTake (s : State) (st p : Station) :
    (s.beginTake st).port p = if st = p then { s.port st with request := [], expected := none } else s.port p :=
  State.port_setPort s st _ p

@[simp] theorem State.port_placeReply (s : State) (st p : Station) (reply : List Byte) :
    (s.placeReply st reply).port p = if st = p then (s.port st).placeReply reply else s.port p :=
  State.port_setPort s st _ p

theorem SameBesidePorts.beginTake (s : State) (st : Station) : SameBesidePorts s (s.beginTake st) := by
  simp [SameBesidePorts, SameLeases, SameChannels, SameStations, SameClock, SameSupply, SameResets, SameOutside]

theorem SameBesidePorts.placeReply {s t : State} (st : Station) (reply : List Byte) (h : SameBesidePorts s t) :
    SameBesidePorts s (t.placeReply st reply) := h

/-! ## The take -/

/-- The engine always answers with a next state. -/
theorem engineTake_answers (st : Station) (bytes : List Byte) (effect : State → Answer) (s : State) :
    ∃ t, engineTake st bytes effect s = .next t := by
  unfold engineTake
  dsimp only
  split
  · exact ⟨_, rfl⟩
  · split <;> exact ⟨_, rfl⟩

/-- While a device reset lasts a request does nothing (R134). -/
theorem engineTake_reset {s : State} (h : s.resetCtl.active = true) (st : Station) (bytes : List Byte)
    (effect : State → Answer) : engineTake st bytes effect s = .next s := by
  simp only [engineTake, h, if_true]

/-- A request that waits in its port while the arbiter's choice is another goes on waiting (R156). -/
theorem engineTake_waits {s : State} {st : Station} {bytes : List Byte} (hw : s.waitsWith st bytes = true)
    (hc : s.arbiterChoice ≠ some st) (effect : State → Answer) : engineTake st bytes effect s = .next s := by
  unfold engineTake
  split
  · rfl
  · simp only [State.deliver, hw, if_true, hc, false_and, if_false]

/-- A request that is ready is taken whole (R157). -/
theorem engineTake_ready {s : State} {st : Station} {bytes : List Byte} (hr : s.resetCtl.active = false)
    (hw : s.waitsWith st bytes = true) (hc : s.arbiterChoice = some st) (effect : State → Answer) :
    engineTake st bytes effect s =
      .next ((effect (s.beginTake st)).1.placeReply st (effect (s.beginTake st)).2) := by
  simp only [engineTake, hr, Bool.false_eq_true, if_false, State.deliver, hw, if_true, hc, and_self]

/-! ## Requests -/

theorem length_flatMap_entryBytes (entries : List DriveEntry) :
    (entries.flatMap entryBytes).length = 3 * entries.length := by
  induction entries with
  | nil => rfl
  | cons e rest ih => simp only [List.flatMap_cons, List.length_append, ih, entryBytes, List.length_cons,
      List.length_nil]; omega

/-- A well-formed request is a complete one (R146). -/
theorem expectedLength_requestBytes {i : Instr} {st : Station} {bytes : List Byte} (hw : i.wellFormed = true)
    (hr : i.request? = some (st, bytes)) : expectedLength bytes = some bytes.length := by
  cases i <;> simp only [Instr.request?, Option.some.injEq, Prod.mk.injEq, reduceCtorEq] at hr <;>
    obtain ⟨-, rfl⟩ := hr <;> try rfl
  · next count channels =>
    have h : channels.length = announced count := by simpa [Instr.wellFormed] using hw
    simp [expectedLength, RequestCode.toByte, RequestCode.ofByte?, wordBytes, h]
    omega
  · next count entries =>
    have h : entries.length = announced count := by simpa [Instr.wellFormed] using hw
    have k := length_flatMap_entryBytes entries
    simp only [expectedLength, RequestCode.toByte, RequestCode.ofByte?, List.length_cons, k, h]
    simp
    omega

/-- A ready request waits complete in its port. -/
theorem State.Ready.waits {s : State} {i : Instr} {st : Station} (h : s.Ready i st) :
    s.waitsWith st i.requestBytes = true := by
  obtain ⟨hw, hb, -, hs, hq, -⟩ := h
  have := expectedLength_requestBytes hw hb
  simp [State.waitsWith, hs, hq, this]

/-- A request completes when it is ready, its meaning is the engine's take of an effect, and the effect leaves the ports and
the pointer as the take's first step left them. -/
theorem Completes.of_effect {i : Instr} {s : State} {st : Station} {effect : State → Answer} {reply : List Byte}
    {u v : State} (hr : s.Ready i st) (he : exec i s = engineTake st i.requestBytes effect s)
    (hv : effect (s.beginTake st) = (v, reply)) (hp : SamePorts (s.beginTake st) v) (hu : SameBesidePorts u v) :
    Completes i s st reply u := by
  refine ⟨v.placeReply st reply, ?_, ?_, SameBesidePorts.placeReply st reply hu⟩
  · rw [he, engineTake_ready hr.2.2.1 hr.waits hr.2.2.2.2.2, hv]
  · have hport : ∀ p, v.port p = (s.beginTake st).port p := fun p => by simp only [State.port, hp.1]
    refine ⟨?_, ?_, ?_, ?_, ?_, ?_, ?_, fun p hne => ?_, ?_⟩ <;>
      simp [State.port_placeReply, Port.placeReply, hport, hp.2]
    simp [Ne.symm hne]

/-! ## The terms of the statements about checks and operands -/

theorem firstRefusal_eq_none {checks : List (Bool × Byte)} :
    firstRefusal checks = none ↔ ∀ c ∈ checks, c.1 = false := by
  simp [firstRefusal]

/-- The first check that fails, by the model's own list of checks. -/
theorem firstFailing_eq_none {checks : List (Bool × Status)} :
    firstFailing checks = none ↔ ∀ c ∈ checks, c.1 = false := by
  induction checks with
  | nil => simp [firstFailing]
  | cons c rest ih => obtain ⟨b, status⟩ := c; cases b <;> simp [firstFailing, ih]

/-- A channel operand in range names the channel of its value. -/
theorem channelOf?_eq_some {b : Byte} {n : ChannelNo} : channelOf? b = some n ↔ b.toNat = n.val := by
  unfold channelOf?
  split
  · simp [Fin.ext_iff]
  · next h => simp only [reduceCtorEq, false_iff]; have := n.isLt; omega

/-- A station operand in range names the station of its value. -/
theorem stationOf?_eq_some {b : Byte} {st : Station} : stationOf? b = some st ↔ b.toNat = st.val := by
  unfold stationOf?
  split
  · simp [Fin.ext_iff]
  · next h => simp only [reduceCtorEq, false_iff]; have := st.isLt; omega

/-- The lease that a handle byte names, by the model's resolution of handles (R7). -/
theorem State.named_eq (s : State) (handle : Byte) : s.named handle = (Handle.ofByte? handle).bind s.lookup := by
  unfold State.named Handle.ofByte?
  split
  · simp only [Option.bind_some, State.lookup, Fin.ext_iff]
  · rfl

end Sys2Proof.Machine
end

