-- ==== Sys2Proof/Laws/Time.lean ====
section
/-! SUPPORT. The passing of time: what a change makes of the checkers' timers, and what taking a due event leaves due. -/

namespace Sys2Proof.Machine

open Sys2Proof

/-! ## What a change makes of a channel's checker -/

/-- The checker is lawful if it was, and each of its timers stands as it stood, is stopped, or has just been started. -/
structure Channel.Checks (old new : Channel) : Prop where
  lawful : old.CheckerLawful → new.CheckerLawful
  settle : new.settleTimer = old.settleTimer ∨ new.settleTimer = none ∨ new.settleTimer = some 0
  mismatch : new.mismatchTimer = old.mismatchTimer ∨ new.mismatchTimer = none ∨ new.mismatchTimer = some 0

@[refl] theorem Channel.Checks.refl (c : Channel) : c.Checks c := ⟨id, .inl rfl, .inl rfl⟩

@[trans] theorem Channel.Checks.trans {a b c : Channel} (h : a.Checks b) (k : b.Checks c) : a.Checks c where
  lawful := k.lawful ∘ h.lawful
  settle := by rcases k.settle with e | e | e <;> simp only [e, true_or, or_true, reduceCtorEq, h.settle]
  mismatch := by rcases k.mismatch with e | e | e <;> simp only [e, true_or, or_true, reduceCtorEq, h.mismatch]

/-- A start of checking leaves a lawful checker, whatever it was. -/
theorem Channel.startChecking_lawful (c : Channel) : c.startChecking.CheckerLawful := by
  obtain ⟨use, fallback, senseCheck, minClass, senseLevel, phase, settle, mismatch⟩ := c
  unfold Channel.startChecking
  split
  · next h => simp_all [Channel.rest, Channel.CheckerLawful, Channel.isFaulted]
  · split
    · next h k => simp_all [Channel.rest, Channel.CheckerLawful, Channel.isFaulted]
    · split
      · next l e => simp_all [Channel.settle, Channel.CheckerLawful, Channel.isFaulted, Channel.checkedLevel]
      · next e => simp_all [Channel.rest, Channel.CheckerLawful, Channel.isFaulted, Channel.checkedLevel]

theorem Channel.startChecking_timers (c : Channel) :
    (c.startChecking.settleTimer = none ∨ c.startChecking.settleTimer = some 0) ∧
      c.startChecking.mismatchTimer = none := by
  unfold Channel.startChecking; repeat' split
  all_goals simp [Channel.rest, Channel.settle]

theorem Channel.Checks.startChecking (old c : Channel) : old.Checks c.startChecking :=
  ⟨fun _ => c.startChecking_lawful, .inr c.startChecking_timers.1, .inr (.inl c.startChecking_timers.2)⟩

theorem Channel.Checks.redrive (f : HeldUse → HeldUse) (c : Channel) : c.Checks (c.redrive f) := by
  unfold Channel.redrive
  split
  · next u hu =>
    unfold Channel.recheck
    split
    · next h =>
      refine ⟨fun hc => ?_, .inl rfl, .inl rfl⟩
      simp only [Channel.CheckerLawful, h.1, Channel.isFaulted, hu] at hc ⊢
      exact hc
    · exact .startChecking _ _
  · exact .refl c
  · exact .refl c

theorem Channel.Checks.grant (h : Handle) {c : Channel} (hc : c.isIdle = true) : c.Checks (c.grant h) := by
  refine ⟨fun k => ?_, .inl rfl, .inl rfl⟩
  obtain ⟨use, fallback, senseCheck, minClass, senseLevel, phase, settle, mismatch⟩ := c
  cases use <;> simp [Channel.isIdle] at hc
  exact k

theorem Channel.Checks.settleEnds (c : Channel) : c.Checks c.settleEnds := by
  obtain ⟨use, fallback, senseCheck, minClass, senseLevel, phase, settle, mismatch⟩ := c
  cases phase <;> try exact .refl _
  unfold Channel.settleEnds
  dsimp only
  split
  · next h =>
    refine ⟨fun ⟨h1, h2, h3, h4, h5, h6, h7⟩ => ?_, .inr (.inl rfl), .inr (.inr rfl)⟩
    simp only [Channel.disagrees] at h
    split at h
    · next l e =>
      simp_all [Channel.CheckerLawful, Channel.mismatched, Channel.isFaulted, Channel.checkedLevel]
      exact Ne.symm h
    · cases h
  · next h =>
    refine ⟨fun ⟨h1, h2, h3, h4, h5, h6, h7⟩ => ?_, .inr (.inl rfl), .inr (.inl rfl)⟩
    simp only [Channel.disagrees] at h
    split at h
    · next l e => simp_all [Channel.CheckerLawful, Channel.rest, Channel.isFaulted, Channel.checkedLevel]
    · next e => simp_all [Channel.CheckerLawful, Channel.isFaulted, Channel.checkedLevel]

/-! ## What a change makes of every checker, and that it keeps the clock and the supply's timers -/

/-- Every checker follows, and everything beside the lease table, the wait list, the channel table, the station table and the
device notices is kept as far as time is concerned. -/
structure State.Checks (s t : State) : Prop where
  channel : ∀ n, (s.channel n).Checks (t.channel n)
  clock : t.clock = s.clock
  frame : t.frameTime = s.frameTime
  supply : t.supply = s.supply
  causes : t.causes = s.causes
  reset : t.resetCtl = s.resetCtl
  restarts : t.restartCount = s.restartCount

@[refl] theorem State.Checks.refl (s : State) : s.Checks s := ⟨fun _ => .refl _, rfl, rfl, rfl, rfl, rfl, rfl⟩

@[trans] theorem State.Checks.trans {s t u : State} (h : s.Checks t) (k : t.Checks u) : s.Checks u :=
  ⟨fun n => (h.channel n).trans (k.channel n), k.clock.trans h.clock, k.frame.trans h.frame,
    k.supply.trans h.supply, k.causes.trans h.causes, k.reset.trans h.reset,
    k.restarts.trans h.restarts⟩

theorem State.Checks.of_frame {s t : State} (f : SameBesideTables s t)
    (h : ∀ n, (s.channel n).Checks (t.channel n)) : s.Checks t :=
  ⟨h, f.2.1.1, f.2.1.2, f.2.2.1.1, f.2.2.1.2, f.2.2.2.1.1, f.2.2.2.1.2.2⟩

/-- The same channel tables, in other states. -/
theorem Channel.Checks.of_tables {s t s' t' : State} (h : ∀ n, (s.channel n).Checks (t.channel n))
    (hs : s'.channels = s.channels) (ht : t'.channels = t.channels) (n : ChannelNo) :
    (s'.channel n).Checks (t'.channel n) := by
  simpa only [State.channel, hs, ht] using h n

theorem State.Checks.lapse (s : State) (p : SlotNo → Bool) (cause : LapseCause) : s.Checks (s.lapse p cause) := by
  have spec := s.lapse_spec p cause
  refine .of_frame spec.1.2.2.2 fun n => ?_
  by_cases h : s.InHeldSlot p n
  · rw [spec.1.1 n h, ← Channel.toFallback_eq]; exact .startChecking _ _
  · rw [spec.1.2.1 n h]

theorem State.Checks.grantEvaluation (s : State) : s.Checks s.grantEvaluation := by
  refine State.grantEvaluation_keeps (P := s.Checks) (fun t h l passed hl hg ht => ht.trans ?_) s (.refl s)
  have hs : t.leaseAt h.slot = some l := by
    unfold State.lookup at hl; split at hl
    · exact hl
    · cases hl
  refine .of_frame (t.grantWaiting_frame h) fun n => ?_
  rw [State.grantWaiting_channel hs]
  split
  · next hn =>
    rw [← Channel.grant_eq]
    simp only [State.grantable, Bool.and_eq_true, List.all_eq_true] at hg
    exact .grant _ (hg.1.2 n hn)
  · exact .refl _

theorem State.Checks.evaluateIf (s : State) (b : Bool) : s.Checks (s.evaluateIf b) := by
  unfold State.evaluateIf; split
  · exact .grantEvaluation s
  · exact .refl s

theorem State.Checks.mapChannels (s : State) {f : ChannelNo → Channel → Channel}
    (h : ∀ n (c : Channel), c.Checks (f n c)) :
    s.Checks (s.mapChannels f) :=
  ⟨fun n => by rw [State.channel_mapChannels]; exact h n _, by simp, by simp, by simp, by simp, by simp, by simp⟩

theorem State.Checks.setChannel (s : State) (n : ChannelNo) {x : Channel} (h : (s.channel n).Checks x) :
    s.Checks (s.setChannel n x) :=
  ⟨fun k => by
    rw [State.channel_setChannel]; split
    · next e => exact e ▸ h
    · exact .refl _, by simp, by simp, by simp, by simp, by simp, by simp⟩

/-! ## The events that are due -/

/-- The command of the row that a due event is. -/
def Due.command : Due → Instr
  | .leaseTick => .leaseTick
  | .silenceExpiry => .silenceExpiry
  | .frameStart => .frameStart
  | .supplyLow => .supplyLowEvent
  | .recoveryExpiry => .recoveryExpiry
  | .settleEnd n => .settleEnd n
  | .senseFault n => .senseFault n
  | .resetEnd => .resetEnd

theorem tickPeriod_table :
    ∀ i : Fin 8, #v[1000, 2000, 5000, 10000, 20000, 50000, 100000, 200000][i] = tickPeriod i := by decide
theorem framePeriod_table : ∀ i : Fin 4, #v[10000, 4000, 1000, 250][i] = framePeriod i := by decide

theorem reached_eq_any (t : Option Nat) (limit : Nat) : (t.any fun time => decide (limit ≤ time)) = reached t limit := by
  cases t <;> rfl

theorem timetable_cons (b : Bool) (c : Instr) (rest : List (Bool × Instr)) :
    (((b, c) :: rest).filter Prod.fst).map Prod.snd =
      (if b = true then [c] else []) ++ (rest.filter Prod.fst).map Prod.snd := by
  cases b <;> rfl

theorem map_command_if (p : Prop) [Decidable p] (d : Due) :
    (if p then [d] else []).map Due.command = if p then [d.command] else [] := by
  split <;> rfl

/-- The timetable of the statements is the model's list of due events. -/
theorem State.comingDue_eq (s : State) : s.comingDue = s.due.map Due.command := by
  unfold State.comingDue State.timetable State.due
  simp only [tickPeriod_table, framePeriod_table, reached_eq_any,
    show 1000 * s.clock.settleMs = s.settleWindow from Nat.mul_comm _ _]
  split
  · simp only [timetable_cons, map_command_if, List.filter_nil, List.map_nil, List.append_nil, Due.command]
  · simp only [List.cons_append, List.nil_append, timetable_cons, map_command_if, List.map_append, Due.command,
      decide_eq_true_eq, List.append_assoc]
    simp only [List.filter_flatMap, List.map_flatMap, State.dueOf, timetable_cons, map_command_if, Due.command,
      List.map_append, List.filter_nil, List.map_nil, List.append_nil, Nat.mul_comm]

/-- What it is for an event to be due. -/
def Due.comes (s : State) (d : Due) : Prop :=
  match d with
  | .resetEnd => s.resetCtl.active = true ∧ reached s.resetCtl.release 2000 = true
  | .leaseTick =>
    s.resetCtl.active = false ∧ s.clock.source = .internal ∧ tickPeriod s.clock.periodIndex ≤ s.clock.prescale
  | .silenceExpiry => s.resetCtl.active = false ∧ reached s.clock.silenceTimer (s.clock.silenceLimit * 10000) = true
  | .frameStart => s.resetCtl.active = false ∧ framePeriod s.clock.frameIndex ≤ s.frameTime
  | .supplyLow => s.resetCtl.active = false ∧ reached s.supply.filter 50 = true
  | .recoveryExpiry => s.resetCtl.active = false ∧ reached s.supply.recoveryTimer 20000 = true
  | .settleEnd n => s.resetCtl.active = false ∧ reached (s.channel n).settleTimer s.settleWindow = true
  | .senseFault n => s.resetCtl.active = false ∧ reached (s.channel n).mismatchTimer s.settleWindow = true

/-- Which events are due. -/
theorem State.mem_due {s : State} {d : Due} : d ∈ s.due ↔ d.comes s := by
  unfold State.due
  split <;> next h => cases d <;> simp [Due.comes, h, State.dueOf]

/-- The laws that time rests on: the checkers, the causes with their timers, and the ranges. -/
abbrev State.TimeLawful (s : State) : Prop := s.CheckersLawful ∧ s.CausesLawful ∧ s.RangesLawful

theorem reached_none (limit : Nat) : reached none limit = false := rfl

theorem reached_of_checks {old new : Option Nat} {limit : Nat} (hl : 0 < limit)
    (h : new = old ∨ new = none ∨ new = some 0) (k : reached new limit = true) : reached old limit = true := by
  rcases h with rfl | rfl | rfl
  · exact k
  · cases k
  · simp [reached] at k; omega

theorem State.settleWindow_pos {s : State} (h : s.RangesLawful) : 0 < s.settleWindow :=
  Nat.mul_pos (Nat.lt_of_lt_of_le Nat.zero_lt_one h.1.1) (by decide)

/-- A change that starts checkers afresh, and touches no other timer, brings no event due. -/
theorem State.Checks.after {s t : State} (h : s.Checks t) (hs : s.TimeLawful) :
    t.TimeLawful ∧ ∀ e ∈ t.due, e ∈ s.due := by
  refine ⟨⟨fun hr n => (h.channel n).lawful (hs.1 (h.reset ▸ hr) n), ?_, ?_⟩, fun e he => ?_⟩
  · simpa only [State.CausesLawful, h.clock, h.supply, h.causes] using hs.2.1
  · simpa only [State.RangesLawful, h.clock, h.restarts] using hs.2.2
  · have w : t.settleWindow = s.settleWindow := by simp only [State.settleWindow, h.clock]
    have p := State.settleWindow_pos hs.2.2
    rw [State.mem_due] at he ⊢
    cases e <;> simp only [Due.comes, h.reset, h.clock, h.supply, h.frame, w] at he ⊢ <;> try exact he
    · exact ⟨he.1, reached_of_checks p (h.channel _).settle he.2⟩
    · exact ⟨he.1, reached_of_checks p (h.channel _).mismatch he.2⟩

theorem State.Checks.enterHold (s : State) (k : HoldCause) :
    State.Checks { s with causes := s.causes.put k true } (s.enterHold k) := by
  unfold State.enterHold
  split
  · have h := State.Checks.lapse s (s.slotHas Lease.isHeld) k.lapseCause
    exact ⟨.of_tables h.channel rfl rfl, by simp only [h.clock], by simp only [h.frame], by simp only [h.supply],
      rfl, by simp only [h.reset], by simp only [h.restarts]⟩
  · exact .refl _

theorem State.Checks.leaveHold (s : State) (k : HoldCause) :
    State.Checks { s with causes := s.causes.put k false } (s.leaveHold k) := by
  unfold State.leaveHold
  dsimp only
  split
  · have h := State.Checks.grantEvaluation
      { s with causes := s.causes.put k false, deviceNotices := { s.deviceNotices with clear := true } }
    exact ⟨.of_tables h.channel rfl rfl, by simp only [h.clock], by simp only [h.frame], by simp only [h.supply],
      by simp only [h.causes], by simp only [h.reset], by simp only [h.restarts]⟩
  · exact .refl _

theorem State.Checks.raiseFault (s : State) : s.Checks s.raiseFault := by
  unfold State.raiseFault; exact ⟨.of_tables (fun _ => .refl _) rfl rfl, rfl, rfl, rfl, rfl, rfl, rfl⟩

theorem State.Checks.expireDue (s : State) : s.Checks s.expireDue :=
  (State.Checks.lapse s _ _).trans (.evaluateIf _ _)

theorem State.Checks.leaseTick (s : State) : State.Checks { s with clock := s.clock.advance } s.leaseTick := by
  have h : State.Checks { s with clock := s.clock.advance } s.countTick := by
    have m := State.Checks.mapChannels { s with clock := s.clock.advance }
      (f := fun _ c => c.redrive HeldUse.countPulse) fun _ c => .redrive _ c
    unfold State.countTick
    refine ⟨fun n => ?_, ?_, ?_, ?_, ?_, ?_, ?_⟩
    · rw [State.mapSlots_channel]; exact m.channel n
    all_goals simp
  exact h.trans (.expireDue _)

/-- Taking a due event keeps the laws, and leaves due only what was due beside it: no event comes twice, and none comes of
another. -/
theorem Due.take_spec {s : State} (hs : s.TimeLawful) {d : Due} (hd : d ∈ s.due) :
    (d.take s).TimeLawful ∧ ∀ e ∈ (d.take s).due, e ∈ s.due ∧ e ≠ d := by
  obtain ⟨hch, hca, hra⟩ := hs
  have hs : s.TimeLawful := ⟨hch, hca, hra⟩
  rw [State.mem_due] at hd
  -- Each event leaves a base state in which it is no longer due, and the rest of it is a change of checkers.
  have base : ∀ b t : State, b.Checks t → b.TimeLawful → (∀ e ∈ b.due, e ∈ s.due ∧ e ≠ d) →
      t.TimeLawful ∧ ∀ e ∈ t.due, e ∈ s.due ∧ e ≠ d := fun b t h hb hd =>
    ⟨(h.after hb).1, fun e he => hd e ((h.after hb).2 e he)⟩
  cases d with
  | leaseTick =>
    obtain ⟨ha, hsrc, hp⟩ := hd
    have e : Due.take .leaseTick s = State.leaseTick { s with clock := { s.clock with prescale := 0 } } := by
      simp only [Due.take, State.internalTick, hsrc]
    rw [e]
    refine base _ _ (State.Checks.leaseTick _) ⟨hch, hca, ?_⟩ fun e he => ?_
    · simp only [State.RangesLawful, LeaseClock.advance, hsrc] at hra ⊢; simpa using hra
    · rw [State.mem_due] at he ⊢
      cases e <;> simp [Due.comes, LeaseClock.advance, State.settleWindow, State.channel] at he ⊢ <;> try exact he
      have : 0 < tickPeriod s.clock.periodIndex := by
        generalize s.clock.periodIndex = i; revert i; decide
      omega
  | silenceExpiry =>
    obtain ⟨ha, ht⟩ := hd
    cases hq : s.clock.silenceTimer with
    | none => simp [hq, reached] at ht
    | some time =>
      simp only [Due.take, State.silenceExpiry, hq]
      obtain ⟨c1, c2, c3, c4, c5⟩ := hca
      have hx := c5.1 (by simp [hq])
      refine base _ _ (State.Checks.enterHold _ _) ⟨hch, ⟨?_, ?_, ?_, ?_, ?_⟩, hra⟩ fun e he => ?_
      · simpa [HoldCauses.put] using c1
      · simp [HoldCauses.put]
      · simp [hx.1, hx.2.1]
      · exact c4
      · simp
      · rw [State.mem_due] at he ⊢
        cases e <;> simp [Due.comes, State.settleWindow, State.channel, reached] at he ⊢ <;> exact he
  | frameStart =>
    refine base { s with frameTime := 0 } _ ?_ hs fun e he => ?_
    · simp only [Due.take, State.startFrame]
      have m := State.Checks.mapChannels s (f := fun _ c => c.redrive HeldUse.startFrame) fun _ c => .redrive _ c
      exact ⟨.of_tables m.channel rfl rfl, by simp only [m.clock], rfl, by simp only [m.supply],
        by simp only [m.causes], by simp only [m.reset], by simp only [m.restarts]⟩
    · rw [State.mem_due] at he ⊢
      cases e <;> simp [Due.comes, State.settleWindow, State.channel] at he ⊢ <;> try exact he
      have : 0 < framePeriod s.clock.frameIndex := by
        generalize s.clock.frameIndex = i; revert i; decide
      omega
  | supplyLow =>
    obtain ⟨ha, ht⟩ := hd
    cases hq : s.supply.filter with
    | none => simp [hq, reached] at ht
    | some time =>
      obtain ⟨c1, c2, c3, c4, c5⟩ := hca
      have due : ∀ (b : State), b.supply.filter = none → b.supply.recoveryTimer = none → b.clock = s.clock →
          b.frameTime = s.frameTime → b.channels = s.channels → b.resetCtl = s.resetCtl →
          ∀ e ∈ b.due, e ∈ s.due ∧ e ≠ .supplyLow := by
        intro b f1 f2 f3 f4 f5 f6 e he
        rw [State.mem_due] at he ⊢
        cases e <;> simp [Due.comes, State.settleWindow, State.channel, f1, f2, f3, f4, f5, f6, reached] at he ⊢ <;>
          exact he
      cases hst : s.supply.state with
      | normal =>
        simp only [Due.take, State.supplyLow, hq, hst]
        refine base _ _ (State.Checks.enterHold _ _) ⟨hch, ⟨?_, ?_, c3, ?_, c5⟩, hra⟩ (due _ rfl rfl rfl rfl rfl rfl)
        · simp [HoldCauses.put]
        · simpa [HoldCauses.put] using c2
        · simp
      | recovering =>
        simp only [Due.take, State.supplyLow, hq, hst]
        refine base _ _ (State.Checks.refl _) ⟨hch, ⟨?_, c2, c3, ?_, c5⟩, hra⟩ (due _ rfl rfl rfl rfl rfl rfl)
        · simpa [hst] using c1
        · simp
      | low =>
        simp only [Due.take, State.supplyLow, hq, hst]
        refine base _ _ (State.Checks.refl _) ⟨hch, ⟨?_, c2, c3, ?_, c5⟩, hra⟩ (due _ rfl rfl rfl rfl rfl rfl)
        · simpa [hst] using c1
        · simp
  | recoveryExpiry =>
    obtain ⟨ha, ht⟩ := hd
    obtain ⟨c1, c2, c3, c4, c5⟩ := hca
    have hst : s.supply.state = .recovering := c4.1 fun h => by simp [h, reached] at ht
    simp only [Due.take, State.recoveryExpiry, hst]
    refine base _ _ (State.Checks.leaveHold _ _) ⟨hch, ⟨?_, ?_, c3, ?_, c5⟩, hra⟩ fun e he => ?_
    · simp [HoldCauses.put]
    · simpa [HoldCauses.put] using c2
    · simp
    · rw [State.mem_due] at he ⊢
      cases e <;> simp [Due.comes, State.settleWindow, State.channel, reached] at he ⊢ <;> exact he
  | settleEnd n =>
    obtain ⟨ha, ht⟩ := hd
    have hph : (s.channel n).phase = .settling := (hch ha n).2.2.2.1.1 fun h => by simp [h, reached] at ht
    have k := State.Checks.setChannel s n (.settleEnds (s.channel n))
    refine ⟨(k.after hs).1, fun e he => ⟨(k.after hs).2 e he, ?_⟩⟩
    rintro rfl
    rw [State.mem_due] at he
    have : (s.channel n).settleEnds.settleTimer = none := by
      unfold Channel.settleEnds; rw [hph]; dsimp only; split <;> rfl
    simp [Due.comes, Due.take, State.settleEnd, this, reached] at he
  | senseFault n =>
    obtain ⟨ha, ht⟩ := hd
    have hph : (s.channel n).phase = .mismatch := (hch ha n).2.2.2.2.1.1 fun h => by simp [h, reached] at ht
    have k := State.Checks.setChannel s n (.startChecking (s.channel n) { s.channel n with use := .faulted })
    have hm : (State.channel (s.setChannel n (s.channel n).fault) n).mismatchTimer = none := by
      simp [Channel.fault_eq]
    have all : ∀ t : State, (s.setChannel n (s.channel n).fault).Checks t →
        t.TimeLawful ∧ ∀ e ∈ t.due, e ∈ s.due ∧ e ≠ .senseFault n := by
      intro t h
      refine base _ _ h (k.after hs).1 fun e he => ⟨(k.after hs).2 e he, ?_⟩
      rintro rfl
      rw [State.mem_due] at he
      rw [Due.comes, hm] at he
      simp [reached] at he
    simp only [Due.take, State.senseFault, hph, if_true, State.takeFault]
    split
    · next u hu =>
      have h := State.Checks.lapse (s.setChannel n (s.channel n).fault) (fun i => i == u.lease.slot) .fault
      exact all _ (h.trans ((State.Checks.raiseFault _).trans (.grantEvaluation _)))
    · exact all _ (.raiseFault _)
    · next hu =>
      have := (hch ha n).1.2 (by simp [Channel.isFaulted, hu])
      rw [hph] at this; cases this
  | resetEnd =>
    obtain ⟨ha, ht⟩ := hd
    have hc : ∀ n, (s.endReset).channel n = Channel.afterReset (s.channel n).senseLevel := by
      intro n; simp [State.endReset, State.channel]
    have hsup : s.endReset.supply = SupplyMonitor.afterReset s.vdd := rfl
    refine ⟨⟨fun _ n => ?_, ?_, ?_⟩, fun e he => ?_⟩
    · rw [Due.take, hc]; generalize (s.channel n).senseLevel = l; cases l <;> decide
    · rw [Due.take, State.CausesLawful, hsup]
      refine ⟨?_, ?_, ?_, ?_, ?_⟩
      · unfold SupplyMonitor.afterReset; split <;> simp [State.endReset, State.reset]
      · simp [State.endReset, State.reset, LeaseClock.afterReset]
      · simp [State.endReset, State.reset, LeaseClock.afterReset]
      · unfold SupplyMonitor.afterReset; split <;> simp
      · simp [State.endReset, State.reset, LeaseClock.afterReset]
    · show State.RangesLawful State.reset; decide
    · rw [Due.take, State.mem_due] at he
      have : ∀ n, (s.endReset.channel n).settleTimer = none ∧ (s.endReset.channel n).mismatchTimer = none := by
        intro n; rw [hc]; exact ⟨rfl, rfl⟩
      have idle : s.endReset.resetCtl = .inactive ∧ s.endReset.clock = .afterReset ∧ s.endReset.frameTime = 0 :=
        ⟨rfl, rfl, rfl⟩
      have filter : (SupplyMonitor.afterReset s.vdd).filter = none ∧
          reached (SupplyMonitor.afterReset s.vdd).recoveryTimer 20000 = false := by
        unfold SupplyMonitor.afterReset; split <;> exact ⟨rfl, rfl⟩
      cases e <;> simp [Due.comes, hsup, this, idle, filter, ResetControl.inactive, LeaseClock.afterReset, tickPeriod,
        framePeriod, reached_none] at he

/-- A due event is the command of its row. -/
theorem Due.exec_command {s : State} {d : Due} (hd : d ∈ s.due) : exec d.command s = .next (d.take s) := by
  rw [State.mem_due] at hd
  cases d <;> simp only [Due.comes] at hd <;> simp only [Due.command, Due.take, exec, execLeaseTick, execSilenceExpiry,
    execFrameStart, execSupplyLowEvent, execRecoveryExpiry, execSettleEnd, execSenseFault, execResetEnd, hd.1,
    Bool.false_eq_true, if_false]
  cases h : s.resetCtl.release with
  | none => simp [h, reached] at hd
  | some _ => rfl

/-- The bound of one microsecond is enough. -/
theorem State.due_length_le (s : State) : s.due.length ≤ mostDue := by
  have one : ∀ (p : Prop) [Decidable p] (d : Due), (if p then [d] else []).length ≤ 1 := by
    intro p _ d; split <;> simp
  have two : ∀ l : List ChannelNo, (l.flatMap s.dueOf).length ≤ 2 * l.length := by
    intro l
    induction l with
    | nil => simp
    | cons n rest ih =>
      simp only [List.flatMap_cons, List.length_append, List.length_cons, State.dueOf]
      have := one (reached (s.channel n).settleTimer s.settleWindow = true) (.settleEnd n)
      have := one (reached (s.channel n).mismatchTimer s.settleWindow = true) (.senseFault n)
      omega
  have := two (List.finRange 32)
  simp only [List.length_finRange] at this
  unfold State.due mostDue
  split
  · exact (one _ _).trans (by decide)
  · simp only [List.length_append]
    have := one (s.clock.source = .internal ∧ tickPeriod s.clock.periodIndex ≤ s.clock.prescale) .leaseTick
    have := one (reached s.clock.silenceTimer (s.clock.silenceLimit * 10000) = true) .silenceExpiry
    have := one (framePeriod s.clock.frameIndex ≤ s.frameTime) .frameStart
    have := one (reached s.supply.filter 50 = true) .supplyLow
    have := one (reached s.supply.recoveryTimer 20000 = true) .recoveryExpiry
    omega

theorem State.due_choices (s : State) (k : Nat) : State.due { s with choices := k } = s.due := rfl
theorem State.timeLawful_choices (s : State) (k : Nat) (h : s.TimeLawful) : State.TimeLawful { s with choices := k } := h

/-- With nothing due no event is taken. -/
theorem takeDue_rest {s : State} (h : s.due = []) : ∀ n, takeDue n s = s
  | 0 => rfl
  | n + 1 => by simp only [takeDue, h]

/-- Everything the taking of due events does: they are taken one by one until none is due, as long as their bound allows. -/
theorem takeDue_takes : ∀ (n : Nat) (s : State), s.TimeLawful → s.due.toFinset.card ≤ n → TakesDue s (takeDue n s)
  | 0, s, hs, hn => by
    have : s.due = [] := by simpa using hn
    exact .rest (by rw [State.comingDue_eq, this]; rfl)
  | n + 1, s, hs, hn => by
    have next : ∀ (d : Due) (k : Nat), d ∈ s.due →
        k = (if s.comingDue = [d.command] then s.choices else s.choices + 1) →
        TakesDue s (takeDue n (d.take { s with choices := k })) := by
      intro d k hd hk
      have spec := Due.take_spec (State.timeLawful_choices s k hs) (d := d) hd
      have card : (d.take { s with choices := k }).due.toFinset.card ≤ n := by
        have sub : (d.take { s with choices := k }).due.toFinset ⊆ s.due.toFinset.erase d := fun e he =>
          Finset.mem_erase.2 ⟨(spec.2 e (List.mem_toFinset.1 he)).2,
            List.mem_toFinset.2 (spec.2 e (List.mem_toFinset.1 he)).1⟩
        have := (Finset.card_le_card sub).trans_eq (Finset.card_erase_of_mem (List.mem_toFinset.2 hd))
        omega
      refine .event (c := d.command) (b := d.take { s with choices := k }) ?_ ?_ (takeDue_takes n _ spec.1 card)
      · rw [State.comingDue_eq]; exact List.mem_map_of_mem hd
      · rw [← hk]; exact Due.exec_command hd
    cases hdue : s.due with
    | nil =>
      rw [takeDue_rest hdue]
      exact .rest (by rw [State.comingDue_eq, hdue]; rfl)
    | cons d rest =>
      cases rest with
      | nil =>
        have : takeDue (n + 1) s = takeDue n (d.take s) := by simp only [takeDue, hdue]
        rw [this]
        exact next d s.choices (by simp [hdue]) (by simp [State.comingDue_eq, hdue])
      | cons e rest =>
        have : takeDue (n + 1) s = takeDue n
            (((d :: e :: rest)[Config.dueOrder s.choices % (rest.length + 2)]?.getD d).take
              { s with choices := s.choices + 1 }) := by
          simp only [takeDue, hdue]
        rw [this]
        refine next _ _ ?_ ?_
        · rw [hdue]
          have lt : Config.dueOrder s.choices % (rest.length + 2) < (d :: e :: rest).length := Nat.mod_lt _ (by omega)
          rw [List.getElem?_eq_getElem lt, Option.getD_some]
          exact List.getElem_mem lt
        · simp [State.comingDue_eq, hdue]

end Sys2Proof.Machine
end

