-- ==== Sys2Proof/Tests/Slice0.lean ====
section
/-! SUPPORT. Tests of the model against the manual's own words, and for every statement with hypotheses a state and operands that meet
them. -/

namespace Sys2Proof.Machine.Tests

open Sys2Proof Sys2Proof.Machine

/-! ## Small states -/

/-- No hold-down, every station attached with every kind it may enable; station 3 is of class 2 and the others of class 1. -/
def live : State :=
  { State.reset with
    stations :=
      #v[⟨true, 1, 6, ⟨⟨true, true, true⟩, ⟨true, true, true⟩⟩⟩, ⟨true, 1, 6, ⟨⟨true, true, true⟩, ⟨false, false, false⟩⟩⟩,
        ⟨true, 1, 6, ⟨⟨true, true, true⟩, ⟨false, false, false⟩⟩⟩,
        ⟨true, 2, 6, ⟨⟨true, true, true⟩, ⟨false, false, false⟩⟩⟩],
    supply := ⟨.normal, 0, none, none⟩, causes := ⟨false, false⟩ }

/-- A lease of term 5 and warn margin 2. -/
def lease (st : Station) (state : LeaseState) (channels : List ChannelNo) : Lease :=
  ⟨st, state, channels, 5, 5, 2, false, 0, 0, 0, ⟨false, false, false⟩⟩

/-- Handle 0x00. -/
def h0 : Handle := ⟨0, 0⟩

/-- Handle 0x08. -/
def h1 : Handle := ⟨1, 0⟩

/-- The channel held by a lease, driving as given. -/
def heldBy (h : Handle) (d : Drive) (pending : Option Nat) (pulse : Nat) : Channel :=
  { Channel.afterReset .low with use := .held ⟨h, d, pending, pulse⟩ }

/-- Station 1 holds CH0 and CH1 with the lease 0x00. -/
def holding : State :=
  ((live.setSlot 0 ⟨0, some (lease 1 .held [0, 1])⟩).setChannel 0 (heldBy h0 (.steady .low) none 0)).setChannel 1
    (heldBy h0 (.steady .low) none 0)

/-- Station 2 waits for CH1 behind it with the lease 0x08. -/
def waiting : State := { holding.setSlot 1 ⟨0, some (lease 2 .pending [1])⟩ with waitList := [h1] }

/-- The lease 0x00 of station 1 is LAPSED. -/
def lapsedState : State := live.setSlot 0 ⟨0, some { lease 1 (.lapsed .expired) [0] with remaining := 0 }⟩

/-- The request stands complete in its port. -/
def asks (s : State) (i : Instr) : State :=
  match i.request? with
  | some (st, bytes) => s.setPort st ⟨.queued, bytes, some bytes.length, [], 0, .none, none⟩
  | none => s

/-- A port in the given state with the given reply. -/
def portIn (state : PortState) (reply : List Byte) : Port := ⟨state, [], none, reply, 0, .none, none⟩

/-- CH0 with sense check on and its checker in the given phase, its sense input HIGH against the fallback LOW. -/
def checkedChannel (use : ChannelUse) (phase : Phase) (mismatch : Option Nat) : Channel :=
  { Channel.afterReset .high with use := use, senseCheck := true, phase := phase, mismatchTimer := mismatch }

/-- The clock with source EXTERNAL, RISING edge, divisor 8 and a silence limit of 1. -/
def external (prescale : Nat) (state : ClockState) (silence : Option Nat) : LeaseClock :=
  { LeaseClock.afterReset with
    source := .external, divisorIndex := 1, silenceLimit := 1, prescale := prescale, state := state,
    silenceTimer := silence }

/-- A device reset lasts, on the RST# pin. -/
def inReset : State := { live with rstPin := .low, resetCtl := ⟨true, false, false, false, none⟩ }

/-- What a command answers, looked at through a view; none where it stops. -/
def after {α : Type} (c : Instr) (s : State) (view : State → α) : Option α :=
  match exec c s with
  | .next t => some (view t)
  | .fault _ => none
  | .refused _ => none

/-! ## Well-formed and ill-formed commands -/

theorem test_claim_without_its_channel_is_ill_formed :
    (Instr.claim 1 0x00#8 5#16 0x00#8 0x02#8 [0x01#8]).wellFormed = false := by decide

theorem test_claim_with_a_count_out_of_range_has_no_channels :
    (Instr.claim 1 0x00#8 5#16 0x00#8 0x09#8 []).wellFormed = true := by decide

theorem test_drive_with_an_entry_too_many_is_ill_formed :
    (Instr.drive 1 0x00#8 0x01#8 [⟨0x00#8, 0x00#8, 0x00#8⟩, ⟨0x01#8, 0x00#8, 0x00#8⟩]).wellFormed = false := by decide

theorem test_unknown_command_byte_that_is_known_is_ill_formed :
    (Instr.unknownCommandByte 1 0x20#8).wellFormed = false ∧ (Instr.unknownCommandByte 1 0xF0#8).wellFormed = false ∧
      (Instr.unknownCommandByte 1 0xF1#8).wellFormed = false := by decide

theorem test_supply_events_out_of_range_are_ill_formed :
    (Instr.supplyBelowVt 3150).wellFormed = false ∧ (Instr.supplyAboveVt 2949).wellFormed = false ∧
      (Instr.supplyRise 3000).wellFormed = false ∧ (Instr.deviceReset (.supply 2700)).wellFormed = false ∧
      (Instr.lastResetConditionClears (.supply 2800)).wellFormed = false := by decide

/-! ## Requests laid out byte by byte (R167) -/

theorem test_layout_queries :
    decodeRequest 3 [0x01#8] = some (.readStatus 3) ∧ decodeRequest 2 [0x02#8, 0x1F#8] = some (.queryChannel 2 0x1F#8) ∧
      decodeRequest 1 [0x03#8, 0xBF#8] = some (.queryLease 1 0xBF#8) ∧
      decodeRequest 0 [0x04#8, 0x03#8] = some (.listLeases 0 0x03#8) := by decide

theorem test_layout_stations :
    decodeRequest 1 [0x10#8] = some (.attach 1) ∧ decodeRequest 1 [0x11#8] = some (.detach 1) ∧
      decodeRequest 1 [0x12#8, 0x07#8] = some (.setMask 1 0x07#8) ∧ decodeRequest 1 [0x13#8] = some (.poll 1) := by
  decide

theorem test_layout_leases :
    decodeRequest 2 [0x22#8] = some (.renewAll 2) ∧ decodeRequest 2 [0x24#8, 0x09#8] = some (.release 2 0x09#8) ∧
      decodeRequest 2 [0x21#8, 0x08#8, 0x01#8, 0x2C#8] = some (.renew 2 0x08#8 300#16) := by decide

theorem test_layout_supervisor :
    decodeRequest 0 [0x30#8, 0x05#8, 0x04#8, 0x01#8] = some (.configChannel 0 0x05#8 0x04#8 0x01#8) ∧
      decodeRequest 0 [0x32#8, 0x03#8, 0x01#8, 0x14#8, 0x02#8, 0x05#8] =
        some (.configClock 0 0x03#8 0x01#8 0x14#8 0x02#8 0x05#8) ∧
      decodeRequest 0 [0x33#8, 0x02#8] = some (.configSupply 0 0x02#8) ∧
      decodeRequest 0 [0x34#8, 0x05#8] = some (.clearFault 0 0x05#8) ∧
      decodeRequest 0 [0x35#8, 0x00#8] = some (.revoke 0 0x00#8) ∧ decodeRequest 0 [0x36#8] = some (.restart 0) := by
  decide

/-! ## Single commands, expected results from the manual's rules and worked examples -/

/-- R136: the claim during the start-up hold-down of a device reset is refused HOLD_DOWN (0x44) with 0xFF and 0. -/
theorem test_claim_in_hold_down :
    after (.claim 1 0x00#8 5#16 0x02#8 0x01#8 [0x00#8])
      (asks { live with causes := ⟨true, false⟩ } (.claim 1 0x00#8 5#16 0x02#8 0x01#8 [0x00#8]))
      (fun t => (t.port 1).reply) = some [0x44#8, 0xFF#8, 0x00#8] := by decide

/-- Section 3.1's example: the claim granted at once is handle 0x00. -/
theorem test_claim_granted :
    after (.claim 1 0x00#8 5#16 0x02#8 0x01#8 [0x05#8]) (asks live (.claim 1 0x00#8 5#16 0x02#8 0x01#8 [0x05#8]))
      (fun t => ((t.port 1).reply, (t.channel 5).holding)) = some ([0x01#8, 0x00#8, 0x00#8], some h0) := by decide

/-- Section 3.1's example: the tick that brings remaining to the margin warns. -/
theorem test_tick_warns :
    after .leaseTick (live.setSlot 0 ⟨0, some { lease 1 .held [5] with remaining := 3 }⟩)
      (fun t => (t.leaseAt 0).map fun l => (l.remaining, l.warned, l.notices.warning)) =
      some (some (2, true, true)) := by decide

/-- Section 3.1's example: the tick that brings remaining to 0 lapses the lease with cause EXPIRED. -/
theorem test_tick_expires :
    after .leaseTick (holding.setSlot 0 ⟨0, some { lease 1 .held [0, 1] with remaining := 1 }⟩)
      (fun t => ((t.leaseAt 0).map fun l => (l.state, l.notices.lapsed), (t.channel 0).use)) =
      some (some (.lapsed .expired, true), .idle) := by decide

/-- Section 1.2's example: a released slot is FREE at the next generation. -/
theorem test_release_frees :
    after (.release 1 0x00#8) (asks holding (.release 1 0x00#8)) (fun t => t.slot 0) = some ⟨1, none⟩ := by decide

/-- R58, R40: the waiting lease takes the released channel in the same change. -/
theorem test_release_grants_waiter :
    after (.release 1 0x00#8) (asks waiting (.release 1 0x00#8))
      (fun t => ((t.channel 1).holding, t.waitList, (t.leaseAt 1).map fun l => l.notices.granted)) =
      some (some h1, [], some true) := by decide

/-- R61: REVOKE from a station that is not the supervisor is refused DENIED (0x14). -/
theorem test_revoke_denied :
    after (.revoke 1 0x00#8) (asks holding (.revoke 1 0x00#8)) (fun t => (t.port 1).reply) = some [0x14#8] := by decide

/-- R78: PWM on a steady drive waits for the frame start. -/
theorem test_pwm_is_pending :
    after (.drive 1 0x00#8 0x01#8 [⟨0x00#8, 0x03#8, 0x80#8⟩])
      (asks holding (.drive 1 0x00#8 0x01#8 [⟨0x00#8, 0x03#8, 0x80#8⟩])) (fun t => (t.channel 0).use) =
      some (.held ⟨h0, .steady .low, some 128, 0⟩) := by decide

/-- R81: the tick that ends PULSE_HIGH leaves LOW. -/
theorem test_pulse_ends_low :
    after .leaseTick (holding.setChannel 0 (heldBy h0 (.pulse .high 3) none 1)) (fun t => (t.channel 0).use) =
      some (.held ⟨h0, .steady .low, none, 0⟩) := by decide

/-- R151: ABORT in QUEUED records WITHDRAWN. -/
theorem test_abort_withdraws :
    after (.abort 1) (asks live (.attach 1)) (fun t => ((t.port 1).state, (t.port 1).error)) =
      some (.idle, .withdrawn) := by decide

/-- R122: the tick counter wraps from 65535 to 0. -/
theorem test_tick_counter_wraps :
    after .leaseTick { live with clock := { live.clock with tickCounter := 0xFFFF#16 } }
      (fun t => t.clock.tickCounter) = some 0#16 := by decide

/-- R6: the generation advances from 7 to 0. -/
theorem test_generation_wraps :
    after (.release 1 0x07#8) (asks (live.setSlot 0 ⟨7, some (lease 1 (.lapsed .revoked) [0])⟩) (.release 1 0x07#8))
      (fun t => t.slot 0) = some ⟨0, none⟩ := by decide

/-- R163: the restart count stays at 255. -/
theorem test_restart_count_saturates :
    after (.restart 0) (asks { holding with restartCount := 255 } (.restart 0))
      (fun t => (t.restartCount, (t.port 0).reply)) = some (255, [0x00#8, 0xFF#8]) := by decide

/-- Section 8.1's example: the supply-low event lapses the HELD lease with cause SUPPLY and raises HOLD. -/
theorem test_supply_low_lapses :
    after .supplyLowEvent { holding with supply := ⟨.normal, 0, none, some 50⟩, vdd := 2900 }
      (fun t => ((t.leaseAt 0).map Lease.state, t.causes, t.deviceNotices.hold, t.supply.state)) =
      some (some (.lapsed .supply), ⟨true, false⟩, true, .low) := by decide

/-- Section 8.1's example: the recovery expiry raises CLEAR and grants the waiting lease. -/
theorem test_recovery_grants :
    after .recoveryExpiry
      { live.setSlot 1 ⟨0, some (lease 2 .pending [1])⟩ with
        waitList := [h1], supply := ⟨.recovering, 0, some 20000, none⟩, causes := ⟨true, false⟩ }
      (fun t => (t.supply.state, t.deviceNotices.clear, (t.leaseAt 1).map Lease.state)) =
      some (.normal, true, some .held) := by decide

/-- R125: the edge that finds the clock LOST brings it back and produces no lease tick. -/
theorem test_edge_recovers_clock :
    after (.qualifyingEdge .rising) { live with clock := external 7 .lost none, causes := ⟨false, true⟩ }
      (fun t => (t.clock.state, t.clock.prescale, t.clock.tickCounter, t.causes)) =
      some (.running, 0, 0#16, ⟨false, false⟩) := by decide

/-- Section 2.3's example: the preempted lease lapses whole, and CH0, which was not asked for, goes back to IDLE. -/
theorem test_preemption_lapses_whole :
    after (.claim 3 0x02#8 5#16 0x02#8 0x01#8 [0x01#8]) (asks waiting (.claim 3 0x02#8 5#16 0x02#8 0x01#8 [0x01#8]))
      (fun t => ((t.port 3).reply, (t.leaseAt 0).map Lease.state, (t.channel 0).use, (t.channel 1).holding)) =
      some ([0x01#8, 0x10#8, 0x00#8], some (.lapsed .preempted), .idle, some ⟨2, 0⟩) := by decide

/-- R36: the claim of higher class is queued ahead, at wait position 1. -/
theorem test_queued_by_class :
    after (.claim 3 0x01#8 5#16 0x02#8 0x01#8 [0x01#8]) (asks waiting (.claim 3 0x01#8 5#16 0x02#8 0x01#8 [0x01#8]))
      (fun t => ((t.port 3).reply, t.waitList)) = some ([0x02#8, 0x10#8, 0x01#8], [⟨2, 0⟩, h1]) := by decide

/-- R96: a fault on an IDLE channel. -/
theorem test_fault_on_idle_channel :
    after (.senseFault 0) (live.setChannel 0 (checkedChannel .idle .mismatch (some 5000)))
      (fun t => ((t.channel 0).use, (t.channel 0).phase, t.deviceNotices.fault, t.atnAsserted 0)) =
      some (.faulted, .stopped, true, true) := by decide

/-- R148: a command byte that names no request is answered BAD_REQUEST (0x10) by the port. -/
theorem test_bad_request :
    after (.unknownCommandByte 1 0x05#8) live (fun t => ((t.port 1).state, (t.port 1).reply)) =
      some (.reply, [0x10#8]) := by decide

/-- R136: a power-on reset that ends with the supply at 3.30 V leaves the state right after reset. -/
theorem test_reset_end_is_reset :
    after .resetEnd { State.reset with causes := ⟨false, true⟩, pointer := 1, resetCtl := ⟨true, false, true, true, some 2000⟩ }
      (fun t => (t.slots == State.reset.slots && t.stations == State.reset.stations && t.ports == State.reset.ports,
        t.causes, t.supply, t.lastReset, t.pointer)) =
      some (true, ⟨true, false⟩, State.reset.supply, .power, 3) := by decide

/-! ## The hypotheses of the statements can be met -/

/-- Timers that stand `less` microseconds before their times: the lease tick, the frame, the filter, the recovery, a settle of CH0 and a
mismatch of CH1. -/
def nearDue (less : Nat) : State :=
  (({ live with
      clock := { live.clock with prescale := 10000 - less }
      frameTime := 1000 - less
      supply := ⟨.recovering, 0, some (20000 - less), some (50 - less)⟩
      causes := ⟨true, false⟩ }.setChannel 0
    { checkedChannel .idle .settling none with settleTimer := some (5000 - less) }).setChannel 1
    (checkedChannel .idle .mismatch (some (5000 - less))))

/-- R119, R76, R130, R131, R93, R94: each event comes when its time is full, and not a microsecond before. -/
theorem test_events_come_due_at_their_times :
    (nearDue 1).oneLater.comingDue =
        [.leaseTick, .frameStart, .supplyLowEvent, .recoveryExpiry, .settleEnd 0, .senseFault 1] ∧
      (nearDue 2).oneLater.comingDue = [] := by decide

/-- R123 with a silence limit of 1, and R134: 10 ms and 2 ms. -/
theorem test_silence_and_reset_end_come_due_at_their_times :
    State.comingDue { live with clock := external 0 .running (some 10000) } = [.silenceExpiry] ∧
      State.comingDue { live with clock := external 0 .running (some 9999) } = [] ∧
      State.comingDue { inReset with resetCtl := ⟨true, false, false, false, some 2000⟩ } = [.resetEnd] ∧
      State.comingDue { inReset with resetCtl := ⟨true, false, false, false, some 1999⟩ } = [] := by decide

theorem test_witness_EmptyQueueTakesChoice :
    ((asks live (.attach 1)).pending = [] ∧ (asks live (.attach 1)).Ready (.attach 1) 1) ∧
      (nearDue 1).CheckersLawful ∧ (nearDue 1).CausesLawful ∧ (nearDue 1).RangesLawful ∧ (nearDue 1).pending = [] ∧
      (nearDue 1).arbiterChoice = none := ⟨by decide, by decide, by decide, by decide, by decide, by decide⟩

/-- The state of the witnesses about every step: a lease tick waits in the queue. -/
def ticking : State := { waiting with pending := [.leaseTick] }

theorem test_ticking_leases : ticking.LeasesLawful := by decide
theorem test_ticking_counts : ticking.CountsAgree := by decide
theorem test_ticking_waitList : ticking.WaitListLawful := by decide
theorem test_ticking_holdings : ticking.HoldingsAgree := by decide
theorem test_ticking_drives : ticking.DrivesLawful := by decide
theorem test_ticking_checkers : ticking.CheckersLawful := by decide
theorem test_ticking_holdDown : ticking.HoldDownLawful := by decide
theorem test_ticking_causes : ticking.CausesLawful := by decide
theorem test_ticking_stations : ticking.StationsLawful := by decide
theorem test_ticking_ports : ticking.PortsLawful := by decide
theorem test_ticking_ranges : ticking.RangesLawful := by decide

theorem test_witness_StepKeepsSound : ticking.Sound ∧ ∃ t, step ticking = .next t :=
  ⟨⟨test_ticking_leases, test_ticking_counts, test_ticking_waitList, test_ticking_holdings, test_ticking_drives,
    test_ticking_checkers, test_ticking_holdDown, test_ticking_causes, test_ticking_stations, test_ticking_ports,
    test_ticking_ranges⟩, _, rfl⟩

theorem test_witness_StepKeepsLeaseLaws : ticking.LeasesLawful ∧ ∃ t, step ticking = .next t :=
  ⟨test_ticking_leases, _, rfl⟩

theorem test_witness_StepKeepsHoldDownLaw :
    State.HoldDownLawful { State.reset with pending := [.recoveryExpiry] } ∧
      State.holdDown { State.reset with pending := [.recoveryExpiry] } = true ∧
      ∃ t, step { State.reset with pending := [.recoveryExpiry] } = .next t :=
  ⟨by decide, by decide, _, rfl⟩

theorem test_witness_StepKeepsClockAndSupplyLaws :
    (ticking.CausesLawful ∧ ticking.RangesLawful) ∧ ∃ t, step ticking = .next t :=
  ⟨⟨test_ticking_causes, test_ticking_ranges⟩, _, rfl⟩

theorem test_witness_StepKeepsDriveLaws : ticking.DrivesLawful ∧ ∃ t, step ticking = .next t :=
  ⟨test_ticking_drives, _, rfl⟩

theorem test_witness_CommandsKeepQueue : ∃ t, exec .leaseTick ticking = .next t := ⟨_, rfl⟩

theorem test_witness_RequestRoundTrip :
    (Instr.renew 2 0x08#8 300#16).wellFormed = true ∧
      (Instr.renew 2 0x08#8 300#16).request? = some (2, [0x21#8, 0x08#8, 0x01#8, 0x2C#8]) := by decide

theorem test_witness_RequestEndsAtLastByte :
    (Instr.claim 1 0x00#8 5#16 0x02#8 0x01#8 [0x05#8]).wellFormed = true ∧
      (Instr.claim 1 0x00#8 5#16 0x02#8 0x01#8 [0x05#8]).request? =
        some (1, [0x20#8, 0x00#8, 0x00#8, 0x05#8, 0x02#8, 0x01#8, 0x05#8]) := by decide

theorem test_witness_WrittenRequestIsQueued :
    (Instr.release 1 0x00#8).wellFormed = true ∧
      (Instr.release 1 0x00#8).request? = some (1, RequestCode.release.toByte :: [0x00#8]) ∧
      live.resetCtl.active = false ∧ (live.port 1).state = .idle ∧
      ((live.setPort 1 (portIn .reply [0x00#8])).port 1).state = .reply := by decide

theorem test_witness_port_cycles :
    live.resetCtl.active = false ∧ (Instr.unknownCommandByte 1 0x05#8).wellFormed = true := by decide

theorem test_witness_PortReads :
    live.resetCtl.active = false ∧ (live.port 1).state ≠ .reply ∧
      ((live.setPort 1 (portIn .reply [0x00#8])).port 1).state = .reply ∧
      ((live.setPort 1 (portIn .reply [0x00#8])).port 1).reply[0]? = some 0x00#8 := by decide

theorem test_witness_NothingHappensInReset :
    inReset.resetCtl.active = true ∧ (Instr.attach 1).request?.isSome = true := by decide

theorem test_witness_ArbiterServesInRotation :
    (asks live (.attach 1)).resetCtl.active = false ∧ ((asks live (.attach 1)).port 1).state = .queued := by decide

theorem test_witness_RefusedRequests :
    (asks State.reset (.detach 1)).Ready (.detach 1) 1 ∧
      firstRefusal ((asks State.reset (.detach 1)).refusals (.detach 1)) = some 0x13#8 := by decide

theorem test_witness_ReadStatusReports : (asks live (.readStatus 2)).Ready (.readStatus 2) 2 := by decide

theorem test_witness_QueryChannelReports :
    (asks holding (.queryChannel 2 0x00#8)).Ready (.queryChannel 2 0x00#8) 2 ∧
      (asks live (.queryChannel 2 0x1F#8)).Ready (.queryChannel 2 0x1F#8) 2 ∧
      (0x00#8).toNat = (0 : ChannelNo).val ∧ (0x1F#8).toNat = (31 : ChannelNo).val := by decide

theorem test_witness_QueryLeaseReports :
    (asks waiting (.queryLease 3 0x08#8)).Ready (.queryLease 3 0x08#8) 3 ∧
      (asks waiting (.queryLease 3 0x08#8)).named 0x08#8 = some (lease 2 .pending [1]) := by decide

theorem test_witness_ListLeasesReports :
    (asks waiting (.listLeases 3 0x01#8)).Ready (.listLeases 3 0x01#8) 3 ∧ (0x01#8).toNat = (1 : Station).val := by
  decide

theorem test_witness_AttachCompletes :
    (asks State.reset (.attach 1)).Ready (.attach 1) 1 ∧ ((asks State.reset (.attach 1)).station 1).attached = false ∧
      (asks live (.attach 1)).Ready (.attach 1) 1 ∧ ((asks live (.attach 1)).station 1).attached = true := by decide

theorem test_witness_DetachCompletes : (asks waiting (.detach 1)).Accepts (.detach 1) 1 := by decide

theorem test_witness_SetMaskCompletes : (asks live (.setMask 1 0x3F#8)).Accepts (.setMask 1 0x3F#8) 1 := by decide

theorem test_witness_PollCompletes : (asks waiting (.poll 1)).Accepts (.poll 1) 1 := by decide

theorem test_witness_ConfigStationCompletes :
    (asks live (.configStation 0 0x03#8 0x02#8 0x18#8)).Accepts (.configStation 0 0x03#8 0x02#8 0x18#8) 0 ∧
      (0x03#8).toNat = (3 : Station).val ∧ (0x02#8).toNat = (2 : Fin 4).val := by decide

theorem test_witness_ClaimGrantedAtOnce :
    let c : Instr := .claim 1 0x00#8 5#16 0x02#8 0x01#8 [0x05#8]
    (asks live c).Accepts c 1 ∧ (asks live c).AvailableAtOnce 1 (channelsOf [0x05#8]) ∧
      (asks live c).leaseAt 0 = none := by decide

/-- The state of the witness of a preemption: station 3, of higher class, asks for CH1 with PREEMPT. -/
def preempting : State := asks waiting (.claim 3 0x02#8 5#16 0x02#8 0x01#8 [0x01#8])

theorem test_witness_ClaimPreempts :
    preempting.Accepts (.claim 3 0x02#8 5#16 0x02#8 0x01#8 [0x01#8]) 3 ∧
      ¬ preempting.AvailableAtOnce 3 (channelsOf [0x01#8]) ∧ (0x02#8).getLsbD 1 = true ∧
      preempting.PreemptionApplies 3 (channelsOf [0x01#8]) ∧ preempting.leaseAt 2 = none ∧
      ∀ j, j < (2 : SlotNo) → preempting.leaseAt j ≠ none :=
  ⟨by decide, by decide, by decide, by decide, by decide, by decide⟩

/-- The state of the witness of a queued claim: station 3 asks, with WAIT alone, for the channel that is held and waited for. -/
def queueing : State := asks waiting (.claim 3 0x01#8 5#16 0x02#8 0x01#8 [0x01#8])

theorem test_queueing_sound : queueing.Sound := by
  refine ⟨?_, ?_, ?_, ?_, ?_, ?_, ?_, ?_, ?_, ?_, ?_⟩ <;> decide

theorem test_witness_ClaimQueued :
    queueing.Sound ∧ queueing.Accepts (.claim 3 0x01#8 5#16 0x02#8 0x01#8 [0x01#8]) 3 ∧
      ¬ queueing.AvailableAtOnce 3 (channelsOf [0x01#8]) ∧
      ¬ ((0x01#8).getLsbD 1 = true ∧ queueing.PreemptionApplies 3 (channelsOf [0x01#8])) ∧
      queueing.leaseAt 2 = none ∧ ∀ j, j < (2 : SlotNo) → queueing.leaseAt j ≠ none :=
  ⟨test_queueing_sound, by decide, by decide, by decide, by decide, by decide⟩

/-- The wait list with a lease that can be granted: its channel is IDLE. -/
def grantable : State :=
  { (live.setSlot 1 ⟨0, some (lease 2 .pending [1])⟩) with waitList := [h1] }

theorem test_grantable_sound : grantable.Sound := by
  refine ⟨?_, ?_, ?_, ?_, ?_, ?_, ?_, ?_, ?_, ?_, ?_⟩ <;> decide

theorem test_witness_EvaluationGrants :
    grantable.Sound ∧ grantable.leaseAt 1 = some (lease 2 .pending [1]) ∧ grantable.handleAt 1 ∈ grantable.waitList ∧
      grantable.handleAt 1 ∉ grantable.grantEvaluation.waitList :=
  ⟨test_grantable_sound, by decide⟩

theorem test_witness_EvaluationIsFair :
    queueing.Sound ∧ queueing.waitList = [] ++ h1 :: [] ∧ queueing.lookup h1 = some (lease 2 .pending [1]) ∧
      h1 ∈ queueing.grantEvaluation.waitList :=
  ⟨test_queueing_sound, by decide⟩

theorem test_witness_RenewCompletes :
    (asks holding (.renew 1 0x00#8 3#16)).Accepts (.renew 1 0x00#8 3#16) 1 ∧ (0x00#8).toNat / 8 = (0 : SlotNo).val ∧
      (asks holding (.renew 1 0x00#8 3#16)).named 0x00#8 = some (lease 1 .held [0, 1]) := by decide

theorem test_witness_RenewAllCompletes : (asks holding (.renewAll 1)).Accepts (.renewAll 1) 1 := by decide

theorem test_witness_ReleaseCompletes :
    (asks lapsedState (.release 1 0x00#8)).Accepts (.release 1 0x00#8) 1 ∧
      (asks waiting (.release 2 0x08#8)).Accepts (.release 2 0x08#8) 2 ∧
      (asks waiting (.release 2 0x08#8)).named 0x08#8 = some (lease 2 .pending [1]) := by decide

theorem test_witness_RevokeCompletes :
    (asks holding (.revoke 0 0x00#8)).Accepts (.revoke 0 0x00#8) 0 ∧
      (asks waiting (.revoke 0 0x08#8)).Accepts (.revoke 0 0x08#8) 0 ∧ (0x08#8).toNat / 8 = (1 : SlotNo).val := by decide

theorem test_witness_LeaseExpiryCompletes :
    (holding.setSlot 0 ⟨0, some { lease 1 .held [0, 1] with remaining := 0 }⟩).resetCtl.active = false ∧
      (holding.setSlot 0 ⟨0, some { lease 1 .held [0, 1] with remaining := 0 }⟩).isDue 0 = true := by decide

theorem test_witness_DriveCompletes :
    let c : Instr := .drive 1 0x00#8 0x02#8 [⟨0x00#8, 0x03#8, 0xFF#8⟩, ⟨0x01#8, 0x05#8, 0x01#8⟩]
    (asks holding c).Accepts c 1 ∧ ((asks holding c).channel 0).use = .held ⟨h0, .steady .low, none, 0⟩ := by decide

theorem test_witness_ConfigChannelCompletes :
    (asks live (.configChannel 0 0x05#8 0x05#8 0x01#8)).Accepts (.configChannel 0 0x05#8 0x05#8 0x01#8) 0 ∧
      ((asks live (.configChannel 0 0x05#8 0x05#8 0x01#8)).channel 5).CheckerLawful ∧
      (0x05#8).toNat = (5 : ChannelNo).val ∧ (0x05#8).toNat % 4 = Steady.high.code ∧ (0x01#8).toNat = (1 : Fin 4).val := by
  decide

theorem test_witness_DriveEvents :
    (holding.setChannel 0 (heldBy h0 (.pulse .high 3) none 0)).resetCtl.active = false ∧
      ((holding.setChannel 0 (heldBy h0 (.pulse .high 3) none 0)).channel 0).use = .held ⟨h0, .pulse .high 3, none, 0⟩ ∧
      ((holding.setChannel 0 (heldBy h0 (.steady .low) (some 128) 0)).channel 0).use =
        .held ⟨h0, .steady .low, some 128, 0⟩ ∧
      ((holding.setChannel 0 (heldBy h0 (.pulse .high 3) none 1)).channel 0).use = .held ⟨h0, .pulse .high 3, none, 1⟩ ∧
      (live.channel 0).use = .idle := by decide

theorem test_witness_OutputPinsShowDrive :
    live.resetCtl.active = false ∧ (live.channel 0).isHeld = false ∧
      ((holding.setChannel 0 (heldBy h0 (.pwm 255) none 0)).channel 0).use = .held ⟨h0, .pwm 255, none, 0⟩ ∧
      254 * framePeriod 2 ≤ 256 * 993 ∧ 256 * 993 < (254 + 1) * framePeriod 2 := by decide

theorem test_witness_SenseEvents :
    live.resetCtl.active = false ∧ (checkedChannel .idle .watching none).checkedLevel = some .low ∧
      ((live.setChannel 0 (checkedChannel .idle .settling none)).channel 0).phase = .settling ∧
      (live.channel 0).phase = .inactive := by decide

theorem test_witness_SenseFaultCompletes :
    ((live.setChannel 0 (checkedChannel .idle .mismatch (some 0))).channel 0).phase = .mismatch ∧
      ((live.setChannel 0 (checkedChannel .idle .mismatch (some 0))).channel 0).use = .idle ∧
      ((holding.setChannel 0 (checkedChannel (holding.channel 0).use .mismatch (some 0))).channel 0).use =
        .held ⟨h0, .steady .low, none, 0⟩ ∧ live.resetCtl.active = false := by decide

theorem test_witness_ClearFaultCompletes :
    (asks (live.setChannel 5 (checkedChannel .faulted .stopped none)) (.clearFault 0 0x05#8)).Accepts
        (.clearFault 0 0x05#8) 0 ∧ (0x05#8).toNat = (5 : ChannelNo).val ∧
      ((asks (live.setChannel 5 (checkedChannel .faulted .stopped none)) (.clearFault 0 0x05#8)).channel 5).use =
        .faulted := by decide

theorem test_witness_LeaseTickCompletes :
    holding.resetCtl.active = false ∧ holding.clock.source = .internal ∧
      (external 0 .running (some 3)).source = .external := by decide

theorem test_witness_QualifyingEdgeCompletes :
    State.resetCtl { live with clock := external 0 .running (some 3) } = ResetControl.inactive ∧
      (external 0 .running (some 3)).prescale + 1 ≠ tickDivisor (external 0 .running (some 3)).divisorIndex ∧
      (external 7 .running (some 3)).prescale + 1 = tickDivisor (external 7 .running (some 3)).divisorIndex ∧
      State.CausesLawful { live with clock := external 7 .lost none, causes := ⟨false, true⟩ } ∧
      ¬ (live.clock.source = .external ∧ live.clock.edge = .rising) := by decide

theorem test_witness_SilenceExpiryCompletes :
    State.resetCtl { holding with clock := external 0 .running (some 3) } = ResetControl.inactive ∧
      (external 0 .running (some 3)).silenceTimer ≠ none ∧ holding.causes = ⟨false, false⟩ ∧
      live.clock.silenceTimer = none := by decide

/-- The state of the witness of CONFIG_CLOCK: the clock is LOST, with no other cause. -/
def lostClock : State :=
  asks { live with clock := external 7 .lost none, causes := ⟨false, true⟩ }
    (.configClock 0 0x01#8 0x02#8 0xFF#8 0x03#8 0x0F#8)

theorem test_lostClock_sound : lostClock.Sound := by
  refine ⟨?_, ?_, ?_, ?_, ?_, ?_, ?_, ?_, ?_, ?_, ?_⟩ <;> decide

theorem test_witness_ConfigClockCompletes :
    lostClock.Sound ∧ lostClock.Accepts (.configClock 0 0x01#8 0x02#8 0xFF#8 0x03#8 0x0F#8) 0 :=
  ⟨test_lostClock_sound, by decide⟩

theorem test_witness_SupplyMovements :
    live.resetCtl = ⟨false, false, false, false, none⟩ ∧ thresholdOf live.supply.threshold ≤ live.vdd ∧
      2949 < thresholdOf live.supply.threshold ∧ thresholdOf live.supply.threshold ≤ 2950 ∧
      thresholdOf live.supply.threshold + 50 < 3001 ∧ State.vdd { live with vdd := 2949 } < 2950 := by decide

theorem test_witness_SupplyMonitorEvents :
    State.resetCtl { holding with supply := ⟨.normal, 0, none, some 50⟩ } = ResetControl.inactive ∧
      SupplyMonitor.filter ⟨.normal, 0, none, some 50⟩ ≠ none ∧ SupplyMonitor.filter ⟨.recovering, 0, some 0, some 50⟩ ≠ none ∧
      State.reset.supply.state = .recovering ∧ State.reset.causes.supply = true ∧ live.supply.state ≠ .recovering := by decide

/-- A device reset of a brownout, with the 2 ms not begun and RST# as given. -/
def brownout (rst : Level) : State := { live with rstPin := rst, resetCtl := ⟨true, true, false, true, none⟩ }

/-- The voltages are the boundaries of the clauses: 2.70 V and 2.80 V and the millivolts beside them. -/
theorem test_witness_DeviceResetCompletes :
    2699 < 2700 ∧ ((brownout .high).resetCtl.active = true ∧ (brownout .high).resetCtl.metBrownout = true ∧ 2700 ≤ 2700 ∧
        2700 < 2800 ∧ 2700 ≤ 2799 ∧ 2799 < 2800) ∧
      (live.resetCtl.active = false ∧ (brownout .low).resetCtl.supplyHeld = true) ∧
      ((brownout .low).resetCtl.active = true ∧ (brownout .low).rstPin = .low ∧ 2800 < 2801) ∧
      (inReset.resetCtl.active = true ∧ inReset.resetCtl.supplyHeld = false ∧ inReset.resetCtl.release = none) ∧
      ((brownout .high).rstPin = .high ∧ (brownout .high).resetCtl.release = none) ∧
      ResetControl.release ⟨true, false, false, false, some 2000⟩ ≠ none := by decide

/-- R134: the voltages at the boundaries, as the part takes them. -/
theorem test_reset_voltages :
    after (.deviceReset (.supply 2699)) live (fun t => t.resetCtl) = some ⟨true, true, false, true, none⟩ ∧
      after (.supplyBelowVt 2700) live (fun t => t.resetCtl.active) = some false ∧
      after (.supplyBelowVt 2799) { brownout .high with resetCtl := ⟨true, false, false, true, some 3⟩ }
        (fun t => t.resetCtl) = some ⟨true, true, false, true, none⟩ ∧
      after (.lastResetConditionClears (.supply 2801)) (brownout .high) (fun t => t.resetCtl) =
        some ⟨true, false, false, true, some 0⟩ := by decide

/-- CONFIG_SUPPLY waits in SP0, with the supply monitor and the supply as given. -/
def resupplying (index : Byte) (m : SupplyMonitor) (mv : Nat) : State :=
  asks { live with supply := m, causes := ⟨m.state != .normal, false⟩, vdd := mv } (.configSupply 0 index)

/-- One state for each clause, at its boundary voltage. -/
theorem test_witness_ConfigSupplyCompletes :
    ((0x03#8).toNat = (3 : Fin 4).val ∧ (0x01#8).toNat = (1 : Fin 4).val ∧ thresholdOf 3 = 3150 ∧ thresholdOf 1 = 3050 ∧
        thresholdOf 0 = 2950) ∧
      (resupplying 0x03#8 ⟨.normal, 0, none, none⟩ 3150).Accepts (.configSupply 0 0x03#8) 0 ∧
      (resupplying 0x03#8 ⟨.normal, 0, none, some 7⟩ 3149).Accepts (.configSupply 0 0x03#8) 0 ∧
      (resupplying 0x03#8 ⟨.recovering, 0, some 3, none⟩ 2949).Accepts (.configSupply 0 0x03#8) 0 ∧
      (resupplying 0x01#8 ⟨.low, 0, none, none⟩ 2950).Accepts (.configSupply 0 0x01#8) 0 ∧
      (resupplying 0x01#8 ⟨.low, 0, none, none⟩ 2949).Accepts (.configSupply 0 0x01#8) 0 ∧
      (resupplying 0x03#8 ⟨.low, 0, none, none⟩ 3201).Accepts (.configSupply 0 0x03#8) 0 ∧
      (resupplying 0x03#8 ⟨.low, 0, none, none⟩ 3200).Accepts (.configSupply 0 0x03#8) 0 :=
  ⟨by decide, by decide, by decide, by decide, by decide, by decide, by decide, by decide⟩

theorem test_witness_RestartCompletes : (asks waiting (.restart 0)).Accepts (.restart 0) 0 := by decide

end Sys2Proof.Machine.Tests
end

section
/-! PROOFS. What a step can do, said once for any property of the state, and by it that every step keeps the laws of the lease records. -/

namespace Sys2Proof.Machine

open Sys2Proof

/-! ## What a step can do -/

/-- The bytes of a request written to its port change nothing beside the ports. -/
theorem State.deliver_sameBesidePorts (s : State) (st : Station) (bytes : List Byte) :
    SameBesidePorts s (s.deliver st bytes) := by
  unfold State.deliver State.writeCycle
  split
  · exact SameBesidePorts.refl s
  · split <;> exact SameBesidePorts.refl s

/-- What the engine's take can do: it leaves everything beside the ports, or it applies the effect of a complete request to a state that
differs in the ports and the pointer alone, and places the reply. -/
theorem engineTake_cases {st : Station} {bytes : List Byte} {effect : State → Answer} {s t : State}
    (h : engineTake st bytes effect s = .next t) :
    SameBesidePorts s t ∨
      ∃ w, SameBesidePorts s w ∧ expectedLength bytes = some bytes.length ∧
        t = (effect w).1.placeReply st (effect w).2 := by
  have sent := s.deliver_sameBesidePorts st bytes
  unfold engineTake at h
  split at h
  · cases h; exact .inl (SameBesidePorts.refl s)
  · dsimp only at h
    split at h
    · next ready =>
      cases h
      refine .inr ⟨(s.deliver st bytes).beginTake st, sent, ?_, rfl⟩
      have complete := ready.2
      simp only [State.waitsWith, Bool.and_eq_true, beq_iff_eq] at complete
      exact complete.2
    · cases h; exact .inl sent

/-- What a property of the state needs for the passing of time to keep it: that the counter of choices has no part in it, and that
every event keeps it. -/
theorem takeDue_keeps {P : State → Prop} (choices : ∀ s k, P s → P { s with choices := k })
    (take : ∀ (d : Due) s, P s → P (d.take s)) : ∀ (bound : Nat) (s : State), P s → P (takeDue bound s)
  | 0, _, hs => hs
  | bound + 1, s, hs => by
    unfold takeDue
    split
    · exact hs
    · exact takeDue_keeps choices take bound _ (take _ _ hs)
    · exact takeDue_keeps choices take bound _ (take _ _ (choices _ _ hs))

/-- A property that has nothing to do with the queue is kept by every step, if every command and the passing of a microsecond keep it. -/
theorem step_keeps {P : State → Prop} (pending : ∀ s queue, P s → P { s with pending := queue })
    (command : ∀ i s t, P s → exec i s = .next t → P t) (time : ∀ s, P s → P s.passMicrosecond) {s t : State}
    (hs : P s) (h : step s = .next t) : P t := by
  unfold step at h
  split at h
  · unfold State.idle at h
    split at h
    · exact command _ _ _ hs h
    · cases h; exact time s hs
  · exact command _ _ _ (pending _ _ hs) h

/-! ## Leases under their operations -/

theorem Lease.isPending_iff {l : Lease} : l.isPending = true ↔ l.state = .pending := by simp [Lease.isPending]

theorem Lease.isHeld_iff {l : Lease} : l.isHeld = true ↔ l.state = .held := by simp [Lease.isHeld]

/-- A lease that is neither PENDING nor LAPSED is HELD. -/
theorem Lease.isHeld_of_not {l : Lease} (hp : l.isPending = false) (hl : l.isLapsed = false) : l.isHeld = true := by
  obtain ⟨holder, state, rest⟩ := l
  cases state <;> simp_all [Lease.isPending, Lease.isLapsed, Lease.isHeld]

/-- The laws say nothing of the notices (R17). -/
theorem Lease.Lawful.withNotices {l : Lease} (h : l.Lawful) (n : LeaseNotices) : Lease.Lawful { l with notices := n } := h

/-- A grant leaves a lawful lease (R10). -/
theorem Lease.Lawful.grantedAt {l : Lease} (h : l.Lawful) (tick : Word) : (l.grantedAt tick).Lawful := by
  obtain ⟨channels, ⟨term, termMax, margin, marginMax, -⟩, -⟩ := h
  refine ⟨channels, ⟨term, termMax, margin, marginMax, Nat.zero_le _⟩, ?_, ?_, ?_⟩
  · simp [Lease.isPending, Lease.grantedAt]
  · intro _; exact ⟨term, Nat.le_refl _⟩
  · simp [Lease.lapseCause?, Lease.grantedAt]

/-- A lawful lease in force has something left to run. -/
theorem Lease.Lawful.remaining_pos {l : Lease} (h : l.Lawful) (hl : l.isLapsed = false) :
    1 ≤ l.remaining ∧ l.remaining ≤ l.term := by
  obtain ⟨-, ⟨term, -⟩, pending, held, -⟩ := h
  cases hp : l.isPending with
  | true => rw [(pending hp).1]; exact ⟨term, Nat.le_refl _⟩
  | false => exact held (Lease.isHeld_of_not hp hl)

/-- A lapse leaves a lawful lease, where remaining and cause agree (R11, R53). -/
theorem Lease.Lawful.lapsedWith {l : Lease} (h : l.Lawful) {cause : LapseCause}
    (hr : l.remaining ≤ l.term ∧ (l.remaining = 0 ↔ cause = .expired)) : (l.lapsedWith cause).Lawful := by
  obtain ⟨channels, ranges, -⟩ := h
  refine ⟨channels, ranges, ?_, ?_, ?_⟩
  · simp [Lease.isPending, Lease.lapsedWith]
  · simp [Lease.isHeld, Lease.lapsedWith]
  · simpa [Lease.lapseCause?, Lease.lapsedWith] using hr

/-- A lapse other than by expiry leaves a lawful lease (R53, R64). -/
theorem Lease.Lawful.lapse {l : Lease} (h : l.Lawful) {cause : LapseCause} (hc : cause ≠ .expired) :
    (l.lapse cause).Lawful := by
  rw [Lease.lapse_eq]
  split
  · next hl =>
    obtain ⟨pos, le⟩ := h.remaining_pos hl
    exact h.lapsedWith ⟨le, fun e => absurd e (by omega), fun e => absurd e hc⟩
  · exact h

/-- A renewal of a HELD lease leaves a lawful one, where a new term is above the warn margin (R54, R55). -/
theorem Lease.Lawful.renew {l : Lease} (h : l.Lawful) (held : l.isHeld = true) (tick : Word) {newTerm : Nat}
    (hn : newTerm ≠ 0 → l.warnMargin < newTerm ∧ newTerm ≤ 65535) : (l.renew tick newTerm).Lawful := by
  obtain ⟨channels, ⟨term, termMax, margin, marginMax, -⟩, -⟩ := h
  have state : l.state = .held := Lease.isHeld_iff.1 held
  refine ⟨channels, ?_, ?_, ?_, ?_⟩
  · by_cases h0 : newTerm = 0
    · simp only [Lease.renew, h0, if_true]; omega
    · have := hn h0
      simp only [Lease.renew, h0, if_false]; omega
  · simp [Lease.isPending, Lease.renew, state]
  · intro _
    refine ⟨?_, Nat.le_refl _⟩
    by_cases h0 : newTerm = 0
    · simpa only [Lease.renew, h0, if_true] using term
    · have := hn h0
      simp only [Lease.renew, h0, if_false]; omega
  · simp [Lease.lapseCause?, Lease.renew, state]

/-- The lease after the expiries of its tick: lapsed with cause EXPIRED where it stood HELD at remaining 0 (R50). -/
def Lease.expire (l : Lease) : Lease := if l.isHeld && l.remaining == 0 then l.lapse .expired else l

/-- A lawful lease has nothing to expire. -/
theorem Lease.Lawful.expire {l : Lease} (h : l.Lawful) : l.expire.Lawful := by
  unfold Lease.expire
  split
  · next due =>
    simp only [Bool.and_eq_true, beq_iff_eq] at due
    have := (h.2.2.2.1 due.1).1
    omega
  · exact h

/-- The fields that a countdown may change (R48). -/
theorem Lease.countDown_held {l : Lease} (held : l.isHeld = true) :
    ∃ warned notices, l.countDown = { l with remaining := l.remaining - 1, warned := warned, notices := notices } := by
  unfold Lease.countDown
  rw [if_pos held]
  dsimp only
  split
  · exact ⟨_, _, rfl⟩
  · exact ⟨_, _, rfl⟩

/-- The countdown of a lease that is not HELD (R48). -/
theorem Lease.countDown_of_not_held {l : Lease} (held : l.isHeld = false) : l.countDown = l := by
  simp only [Lease.countDown, held, Bool.false_eq_true, if_false]

/-- A lease tick leaves a lawful lease: the count that comes to 0 is the expiry (R48, R50, R53). -/
theorem Lease.Lawful.countDown_expire {l : Lease} (h : l.Lawful) : l.countDown.expire.Lawful := by
  cases held : l.isHeld with
  | false => rw [Lease.countDown_of_not_held held]; exact h.expire
  | true =>
    obtain ⟨channels, ranges, -, count, -⟩ := h
    obtain ⟨pos, le⟩ := count held
    obtain ⟨warned, notices, e⟩ := Lease.countDown_held held
    have state : l.state = .held := Lease.isHeld_iff.1 held
    rw [e]
    by_cases last : l.remaining = 1
    · simp [Lease.expire, Lease.isHeld, Lease.isPending, Lease.lapse, Lease.lapseCause?, Lease.Lawful, state, last, channels,
        ranges]
    · have : l.remaining - 1 ≠ 0 := by omega
      simp [Lease.expire, Lease.isHeld, Lease.isPending, Lease.lapseCause?, Lease.Lawful, state, this, channels, ranges]
      omega

/-! ## The laws of the lease records under each change -/

/-- The laws of the leases rest on the slots alone. -/
theorem State.LeasesLawful.of_slots {s t : State} (h : s.LeasesLawful) (slots : t.slots = s.slots) :
    t.LeasesLawful := by
  intro i l hl
  simp only [State.leaseAt, State.slot, slots] at hl
  exact h i l hl

/-- A change of each slot that keeps the laws of its lease. -/
theorem State.LeasesLawful.mapSlots {s : State} (h : s.LeasesLawful) {f : SlotNo → Slot → Slot}
    (slots : ∀ i x, x = s.slot i → (∀ l ∈ x.lease, l.Lawful) → ∀ l ∈ (f i x).lease, l.Lawful) :
    (s.mapSlots f).LeasesLawful := by
  intro i l hl
  rw [State.leaseAt, State.slot_mapSlots] at hl
  exact slots i _ rfl (h i) l hl

/-- A change of the notices of some slots. -/
theorem State.LeasesLawful.mapNotices {s : State} (h : s.LeasesLawful) (p : SlotNo → Prop) [DecidablePred p]
    (f : LeaseNotices → LeaseNotices) :
    (s.mapSlots fun i x =>
      if p i then { x with lease := x.lease.map fun l => { l with notices := f l.notices } } else x).LeasesLawful :=
  h.mapSlots fun i x _ hx l hl => by
    split at hl
    · obtain ⟨k, hk, rfl⟩ := Option.mem_map.1 hl
      exact (hx k hk).withNotices _
    · exact hx l hl

theorem State.LeasesLawful.setSlot {s : State} (h : s.LeasesLawful) (i : SlotNo) {x : Slot}
    (hx : ∀ l ∈ x.lease, l.Lawful) : (s.setSlot i x).LeasesLawful := by
  intro k l hl
  rw [State.leaseAt, State.slot_setSlot] at hl
  split at hl
  · exact hx l hl
  · exact h k l hl

theorem State.LeasesLawful.lapse {s : State} (h : s.LeasesLawful) (p : SlotNo → Bool) {cause : LapseCause}
    (hc : cause ≠ .expired) : (s.lapse p cause).LeasesLawful :=
  State.LeasesLawful.mapSlots (h.of_slots (s.leave_slots p)) fun i x _ hx l hl => by
    split at hl
    · obtain ⟨k, hk, rfl⟩ := Option.mem_map.1 hl
      exact (hx k hk).lapse hc
    · exact hx l hl

theorem State.LeasesLawful.free {s : State} (h : s.LeasesLawful) (p : SlotNo → Bool) : (s.free p).LeasesLawful := by
  intro i l hl
  obtain ⟨freed, kept⟩ := (s.free_spec p).2 i
  cases hp : p i with
  | true => rw [(freed hp).1] at hl; cases hl
  | false =>
    rw [State.leaseAt, kept hp] at hl
    exact h i l hl

theorem State.LeasesLawful.makeHeld {s : State} (h : s.LeasesLawful) (i : SlotNo) : (s.makeHeld i).LeasesLawful := by
  cases hl : s.leaseAt i with
  | none => rw [State.makeHeld, hl]; exact h
  | some l =>
    rw [State.makeHeld_eq hl]
    exact (h.setSlot i fun k hk => by cases hk; exact (h i l hl).grantedAt _).of_slots (State.mapChannels_slots _ _)

theorem State.LeasesLawful.grantWaiting {s : State} (h : s.LeasesLawful) (e : Handle) :
    (s.grantWaiting e).LeasesLawful := by
  have noticed := (h.makeHeld e.slot).mapNotices (· = e.slot) fun n => { n with granted := true }
  exact noticed.of_slots (by simp only [State.grantWaiting])

theorem State.LeasesLawful.grantEvaluation {s : State} (h : s.LeasesLawful) : s.grantEvaluation.LeasesLawful :=
  State.grantEvaluation_keeps (P := State.LeasesLawful) (fun _ e _ _ _ _ ht => ht.grantWaiting e) s h

theorem State.LeasesLawful.evaluateIf {s : State} (h : s.LeasesLawful) (triggered : Bool) :
    (s.evaluateIf triggered).LeasesLawful := by
  unfold State.evaluateIf
  split
  · exact h.grantEvaluation
  · exact h

theorem HoldCause.lapseCause_ne_expired (k : HoldCause) : k.lapseCause ≠ .expired := by cases k <;> decide

theorem State.LeasesLawful.enterHold {s : State} (h : s.LeasesLawful) (k : HoldCause) : (s.enterHold k).LeasesLawful := by
  unfold State.enterHold
  split
  · exact (h.lapse _ k.lapseCause_ne_expired).of_slots (by dsimp only)
  · exact h

theorem State.LeasesLawful.leaveHold {s : State} (h : s.LeasesLawful) (k : HoldCause) : (s.leaveHold k).LeasesLawful := by
  unfold State.leaveHold
  dsimp only
  split
  · exact State.LeasesLawful.grantEvaluation h
  · exact h

/-- What the expiries of a tick leave of each lease, before the evaluation that follows them (R50). -/
theorem State.leaseAt_lapse_expired (s : State) (i : SlotNo) :
    (s.lapse (s.slotHas fun l => l.isHeld && l.remaining == 0) .expired).leaseAt i = (s.leaseAt i).map Lease.expire := by
  rw [State.leaseAt, State.lapse_slot]
  cases hl : s.leaseAt i with
  | none =>
    have slot : (s.slot i).lease = none := hl
    split <;> simp [Slot.lapse, slot]
  | some l =>
    have slot : (s.slot i).lease = some l := hl
    simp only [State.slotHas, hl, Option.map_some, Lease.expire]
    split
    · simp [Slot.lapse, slot]
    · exact slot

/-- After the expiries every lease is lawful, if the expiry of each lease in the table is. -/
theorem State.expireDue_leasesLawful {s : State} (h : ∀ i, ∀ l ∈ s.leaseAt i, l.expire.Lawful) :
    s.expireDue.LeasesLawful := by
  refine State.LeasesLawful.evaluateIf (fun i l hl => ?_) _
  rw [State.leaseAt_lapse_expired] at hl
  obtain ⟨k, hk, rfl⟩ := Option.mem_map.1 hl
  exact h i k hk

theorem State.LeasesLawful.expireDue {s : State} (h : s.LeasesLawful) : s.expireDue.LeasesLawful :=
  State.expireDue_leasesLawful fun i l hl => (h i l hl).expire

theorem State.LeasesLawful.leaseTick {s : State} (h : s.LeasesLawful) : s.leaseTick.LeasesLawful := by
  refine State.expireDue_leasesLawful fun i l hl => ?_
  simp only [State.countTick, State.leaseAt, State.slot_mapSlots, State.mapChannels_slot] at hl
  obtain ⟨k, hk, rfl⟩ := Option.mem_map.1 hl
  exact (h i k hk).countDown_expire

theorem State.LeasesLawful.internalTick {s : State} (h : s.LeasesLawful) : s.internalTick.LeasesLawful := by
  unfold State.internalTick
  split
  · exact State.LeasesLawful.leaseTick h
  · exact h

theorem State.LeasesLawful.takeEdge {s : State} (h : s.LeasesLawful) : s.takeEdge.LeasesLawful := by
  unfold State.takeEdge
  split
  · unfold State.countEdge
    dsimp only
    split
    · exact State.LeasesLawful.leaseTick h
    · exact h
  · unfold State.recoverClock
    refine State.LeasesLawful.leaveHold ?_ .clock
    exact h

theorem State.LeasesLawful.silenceExpiry {s : State} (h : s.LeasesLawful) : s.silenceExpiry.LeasesLawful := by
  unfold State.silenceExpiry
  split
  · exact h
  · refine State.LeasesLawful.enterHold ?_ .clock
    exact h

theorem State.LeasesLawful.startFrame {s : State} (h : s.LeasesLawful) : s.startFrame.LeasesLawful :=
  h.of_slots (by simp only [State.startFrame, State.mapChannels_slots])

theorem State.LeasesLawful.supplyLow {s : State} (h : s.LeasesLawful) : s.supplyLow.LeasesLawful := by
  unfold State.supplyLow
  split
  · exact h
  · dsimp only
    split
    · refine State.LeasesLawful.enterHold ?_ .supply
      exact h
    · exact h
    · exact h

theorem State.LeasesLawful.recoveryExpiry {s : State} (h : s.LeasesLawful) : s.recoveryExpiry.LeasesLawful := by
  unfold State.recoveryExpiry
  split
  · refine State.LeasesLawful.leaveHold ?_ .supply
    exact h
  · exact h
  · exact h

theorem State.LeasesLawful.senseFault {s : State} (h : s.LeasesLawful) (n : ChannelNo) :
    (s.senseFault n).LeasesLawful := by
  unfold State.senseFault State.takeFault
  split
  · split
    · refine State.LeasesLawful.grantEvaluation ?_
      exact State.LeasesLawful.lapse (s := s.setChannel n (s.channel n).fault) h _ (by decide)
    · exact h
    · exact h
  · exact h

/-- After a device reset no slot holds a lease (R22). -/
theorem State.leaseAt_endReset (s : State) (i : SlotNo) : s.endReset.leaseAt i = none :=
  congrArg Slot.lease (Vector.getElem_replicate i.isLt)

theorem State.endReset_leasesLawful (s : State) : s.endReset.LeasesLawful := by
  intro i l hl
  rw [State.leaseAt_endReset] at hl
  cases hl

theorem State.LeasesLawful.take {s : State} (h : s.LeasesLawful) (d : Due) : (d.take s).LeasesLawful := by
  cases d with
  | leaseTick => exact h.internalTick
  | silenceExpiry => exact h.silenceExpiry
  | frameStart => exact h.startFrame
  | supplyLow => exact h.supplyLow
  | recoveryExpiry => exact h.recoveryExpiry
  | settleEnd n => exact h
  | senseFault n => exact h.senseFault n
  | resetEnd => exact s.endReset_leasesLawful

theorem State.LeasesLawful.passMicrosecond {s : State} (h : s.LeasesLawful) : s.passMicrosecond.LeasesLawful := by
  refine takeDue_keeps (P := State.LeasesLawful) (fun _ _ ht => ht) (fun d _ ht => ht.take d) mostDue _ ?_
  unfold State.advanceTimers
  split
  · exact h
  · exact h.of_slots (by simp only [State.mapChannels_slots])

/-! ## The requests -/

/-- A request whose effect keeps the laws of the leases keeps them when it is taken. -/
theorem State.LeasesLawful.engineTake {s t : State} {st : Station} {bytes : List Byte} {effect : State → Answer}
    (h : s.LeasesLawful)
    (keeps : expectedLength bytes = some bytes.length → ∀ w : State, w.LeasesLawful → (effect w).1.LeasesLawful)
    (taken : Machine.engineTake st bytes effect s = .next t) : t.LeasesLawful := by
  rcases engineTake_cases taken with same | ⟨w, same, complete, rfl⟩
  · exact h.of_slots same.1.1
  · exact (keeps complete w (h.of_slots same.1.1)).of_slots rfl

theorem State.LeasesLawful.applyDrives {s : State} (h : s.LeasesLawful) (settings : List (ChannelNo × Drive)) :
    (s.applyDrives settings).LeasesLawful :=
  List.foldlRecOn settings _ h fun _ ht _ _ => ht

theorem State.LeasesLawful.detachEffect {s : State} (h : s.LeasesLawful) (st : Station) :
    (Machine.detachEffect st s).1.LeasesLawful := by
  unfold Machine.detachEffect
  split
  · exact h
  · refine State.LeasesLawful.evaluateIf ?_ _
    exact (h.free (s.ownedBy st)).of_slots (State.setStation_slots _ _ _)

theorem State.LeasesLawful.pollEffect {s : State} (h : s.LeasesLawful) (st : Station) :
    (Machine.pollEffect st s).1.LeasesLawful := by
  unfold Machine.pollEffect
  split
  · exact h
  · have cleared := h.mapNotices (s.ownedBy st · = true) fun _ => .empty
    exact cleared.of_slots (by simp only [accept, State.clearNotices])

/-- A handle that resolves names the lease in its slot (R7). -/
theorem State.leaseAt_of_lookup {s : State} {h : Handle} {l : Lease} (hl : s.lookup h = some l) :
    s.leaseAt h.slot = some l ∧ s.handleAt h.slot = h := by
  unfold State.lookup at hl
  split at hl
  · next gen => exact ⟨hl, by rw [State.handleAt, gen]⟩
  · cases hl

theorem State.LeasesLawful.renewEffect {s : State} (h : s.LeasesLawful) (st : Station) (handle : Byte) (newTerm : Word) :
    (Machine.renewEffect st handle newTerm s).1.LeasesLawful := by
  unfold Machine.renewEffect
  repeat' split
  all_goals try exact h
  next h' _ l hl _ checks =>
    obtain ⟨at_slot, -⟩ := State.leaseAt_of_lookup hl
    rw [firstFailing_eq_none] at checks
    simp only [renewChecks, List.mem_cons, List.not_mem_nil, or_false, forall_eq_or_imp, forall_eq] at checks
    obtain ⟨-, pending, lapsed, term⟩ := checks
    refine h.setSlot _ fun k hk => ?_
    rw [at_slot] at hk
    cases hk
    refine (h _ l at_slot).renew (Lease.isHeld_of_not pending lapsed) _ fun h0 => ⟨?_, ?_⟩
    · simp only [Bool.and_eq_false_imp, decide_eq_true_eq, decide_eq_false_iff_not] at term
      exact Nat.lt_of_not_le (term h0)
    · have := newTerm.isLt; omega

theorem State.LeasesLawful.renewAllEffect {s : State} (h : s.LeasesLawful) (st : Station) :
    (Machine.renewAllEffect st s).1.LeasesLawful := by
  unfold Machine.renewAllEffect
  split
  · exact h
  · refine h.mapSlots fun i x at_slot hx l hl => ?_
    split at hl
    · next holds =>
      subst at_slot
      obtain ⟨k, hk, rfl⟩ := Option.mem_map.1 hl
      obtain ⟨m, hm, held⟩ := (s.slotHas_iff _ i).1 holds
      obtain rfl : m = k := Option.some.inj (hm.symm.trans hk)
      simp only [heldBy, Bool.and_eq_true] at held
      exact (hx m hk).renew held.2 _ fun h0 => absurd rfl h0
    · exact hx l hl

theorem State.LeasesLawful.driveEffect {s : State} (h : s.LeasesLawful) (st : Station) (handle count : Byte)
    (entries : List DriveEntry) : (Machine.driveEffect st handle count entries s).1.LeasesLawful := by
  unfold Machine.driveEffect
  repeat' split
  all_goals try exact h
  dsimp only
  split
  · exact h
  · exact h.applyDrives _

theorem State.LeasesLawful.releaseEffect {s : State} (h : s.LeasesLawful) (st : Station) (handle : Byte) :
    (Machine.releaseEffect st handle s).1.LeasesLawful := by
  unfold Machine.releaseEffect
  repeat' split
  all_goals try exact h
  exact State.LeasesLawful.evaluateIf (h.free _) _

theorem State.LeasesLawful.revokeEffect {s : State} (h : s.LeasesLawful) (st : Station) (handle : Byte) :
    (Machine.revokeEffect st handle s).1.LeasesLawful := by
  unfold Machine.revokeEffect
  repeat' split
  all_goals try exact h
  exact State.LeasesLawful.grantEvaluation (h.lapse _ (by decide))

theorem State.LeasesLawful.configClockEffect {s : State} (h : s.LeasesLawful) (st : Station)
    (sourceEdge rate silence frame settle : Byte) :
    (Machine.configClockEffect st sourceEdge rate silence frame settle s).1.LeasesLawful := by
  unfold Machine.configClockEffect
  split
  · exact h
  · refine State.LeasesLawful.of_slots (State.LeasesLawful.startFrame ?_) (State.mapChannels_slots _ _)
    split
    · refine State.LeasesLawful.leaveHold ?_ .clock
      exact h
    · exact h

theorem State.LeasesLawful.clearFaultEffect {s : State} (h : s.LeasesLawful) (st : Station) (channel : Byte) :
    (Machine.clearFaultEffect st channel s).1.LeasesLawful := by
  unfold Machine.clearFaultEffect
  repeat' split
  all_goals try exact h
  unfold accept State.clearFault
  dsimp only
  split
  · refine State.LeasesLawful.grantEvaluation ?_
    exact h
  · exact h

theorem State.LeasesLawful.restartEffect {s : State} (h : s.LeasesLawful) (st : Station) :
    (Machine.restartEffect st s).1.LeasesLawful := by
  unfold Machine.restartEffect
  split
  · exact h
  · exact (h.free fun _ => true).of_slots (by simp only [accept, State.restart, State.mapStations_slots])

/-! ## CLAIM -/

/-- The channels of a list of operands in range are as many as the operands, and distinct if these are. -/
theorem channelsOf_of_inRange {bs : List Byte} (inRange : (bs.any fun b => (channelOf? b).isNone) = false)
    (distinct : bs.Nodup) : (channelsOf bs).length = bs.length ∧ (channelsOf bs).Nodup := by
  constructor
  · simp only [List.any_eq_false, Option.isNone_iff_eq_none] at inRange
    rw [channelsOf, List.length_filterMap_eq_countP, List.countP_eq_length]
    intro b hb
    exact Option.isSome_iff_ne_none.2 (inRange b hb)
  · refine distinct.filterMap fun a b n ha hb => ?_
    simp only [Option.mem_def, channelOf?_eq_some] at ha hb
    exact BitVec.eq_of_toNat_eq (ha.trans hb.symm)

/-- A complete CLAIM has as many channel bytes as its count announces (R146). -/
theorem claim_channels_length {st : Station} {options : Byte} {term : Word} {warnMargin count : Byte}
    {channels : List Byte}
    (complete : expectedLength (Instr.claim st options term warnMargin count channels).requestBytes =
      some (Instr.claim st options term warnMargin count channels).requestBytes.length) :
    channels.length = announced count := by
  simp [Instr.requestBytes, Instr.request?, expectedLength, RequestCode.toByte, RequestCode.ofByte?, wordBytes] at complete
  omega

/-- The lease of an admitted claim is lawful (R9, R25). -/
theorem Lease.ofClaim_lawful {st : Station} {term : Word} {warnMargin : Byte} {channels : List ChannelNo}
    (some : 1 ≤ channels.length) (most : channels.length ≤ 8) (distinct : channels.Nodup)
    (margin : warnMargin.toNat < term.toNat) : (Lease.ofClaim st term warnMargin channels).Lawful := by
  have := term.isLt
  have := warnMargin.isLt
  refine ⟨⟨some, most, distinct⟩, ⟨?_, ?_, margin, ?_, Nat.zero_le _⟩, fun _ => ⟨rfl, rfl, rfl, rfl, rfl⟩, ?_, ?_⟩
  · show 1 ≤ term.toNat; omega
  · show term.toNat ≤ 65535; omega
  · show warnMargin.toNat ≤ 255; omega
  · simp [Lease.isHeld, Lease.ofClaim]
  · simp [Lease.lapseCause?, Lease.ofClaim]

theorem State.LeasesLawful.create {s : State} (h : s.LeasesLawful) (i : SlotNo) {l : Lease} (hl : l.Lawful) :
    (s.create i l).LeasesLawful :=
  h.setSlot i fun k hk => by cases hk; exact hl

theorem State.LeasesLawful.claimOutcome {s : State} (h : s.LeasesLawful) (options : Byte) (i : SlotNo) {l : Lease}
    (hl : l.Lawful) : (Machine.claimOutcome options i l s).1.LeasesLawful := by
  unfold Machine.claimOutcome
  split
  · exact (h.create i hl).makeHeld i
  · split
    · exact State.LeasesLawful.evaluateIf
        (((h.lapse (s.victims l.channels) (cause := .preempted) (by decide)).create i hl).makeHeld i) _
    · repeat' split
      all_goals try exact h
      exact (h.create i hl).of_slots (by simp only [claimQueued, State.enqueue])

theorem State.LeasesLawful.claimEffect {s : State} (h : s.LeasesLawful) {st : Station} {options : Byte} {term : Word}
    {warnMargin count : Byte} {channels : List Byte}
    (complete : expectedLength (Instr.claim st options term warnMargin count channels).requestBytes =
      some (Instr.claim st options term warnMargin count channels).requestBytes.length) :
    (Machine.claimEffect st options term warnMargin count channels s).1.LeasesLawful := by
  unfold Machine.claimEffect
  split
  · exact h
  · next checks =>
    split
    · exact h
    · have announces := claim_channels_length complete
      simp only [firstFailing_eq_none, claimArgumentChecks, List.cons_append, List.nil_append, List.mem_cons,
        forall_eq_or_imp] at checks
      obtain ⟨-, range, inRange, distinct, margin, -⟩ := checks
      simp only [decide_eq_false_iff_not, not_or, not_not, Bool.or_eq_false_iff, not_lt] at range distinct margin
      obtain ⟨length, nodup⟩ := channelsOf_of_inRange inRange distinct
      rw [announced, if_pos range] at announces
      exact h.claimOutcome options _ (Lease.ofClaim_lawful (by omega) (by omega) nodup (by omega))
/-! ## Every command -/

theorem State.LeasesLawful.writeCycle {s : State} (h : s.LeasesLawful) (p : Station) (cycle : Port → Port) :
    (s.writeCycle p cycle).LeasesLawful := by
  unfold State.writeCycle
  split
  · exact h
  · exact h

theorem State.LeasesLawful.readCycle {s : State} (h : s.LeasesLawful) (p : Station) (cycle : Port → Port) :
    (s.readCycle p cycle).LeasesLawful := by
  unfold State.readCycle
  split
  · exact h
  · exact h

theorem State.LeasesLawful.supplyTo {s : State} (h : s.LeasesLawful) (mv : Nat) : (s.supplyTo mv).LeasesLawful := by
  unfold State.supplyTo
  dsimp only
  split
  · exact h
  · exact h

/-- An event that does not come while a device reset lasts. -/
theorem State.LeasesLawful.outsideReset {s t u : State} (h : s.LeasesLawful) (hu : u.LeasesLawful)
    (taken : (.next (if s.resetCtl.active then s else u) : Host.Outcome State Fault Refusal) = .next t) :
    t.LeasesLawful := by
  cases taken
  split
  · exact h
  · exact hu

/-- Every command keeps the laws of the lease records (R2, R3, R53). -/
theorem exec_keeps_leasesLawful (i : Instr) (s t : State) (h : s.LeasesLawful) (taken : exec i s = .next t) :
    t.LeasesLawful := by
  cases i with
  | readStatus st => exact h.engineTake (fun _ _ hw => hw) taken
  | queryChannel st channel =>
    refine h.engineTake (fun _ w hw => ?_) taken
    unfold queryChannelEffect
    split <;> exact hw
  | queryLease st handle =>
    refine h.engineTake (fun _ w hw => ?_) taken
    unfold queryLeaseEffect
    repeat' split
    all_goals exact hw
  | listLeases st station =>
    refine h.engineTake (fun _ w hw => ?_) taken
    unfold listLeasesEffect
    split <;> exact hw
  | attach st =>
    refine h.engineTake (fun _ w hw => ?_) taken
    unfold attachEffect
    split <;> exact hw
  | detach st => exact h.engineTake (fun _ _ hw => hw.detachEffect st) taken
  | setMask st mask =>
    refine h.engineTake (fun _ w hw => ?_) taken
    unfold setMaskEffect
    split <;> exact hw
  | poll st => exact h.engineTake (fun _ _ hw => hw.pollEffect st) taken
  | claim st options term warnMargin count channels =>
    exact h.engineTake (fun complete _ hw => hw.claimEffect complete) taken
  | renew st handle newTerm => exact h.engineTake (fun _ _ hw => hw.renewEffect st handle newTerm) taken
  | renewAll st => exact h.engineTake (fun _ _ hw => hw.renewAllEffect st) taken
  | drive st handle count entries => exact h.engineTake (fun _ _ hw => hw.driveEffect st handle count entries) taken
  | release st handle => exact h.engineTake (fun _ _ hw => hw.releaseEffect st handle) taken
  | configChannel st channel config minClass =>
    refine h.engineTake (fun _ w hw => ?_) taken
    unfold configChannelEffect
    repeat' split
    all_goals exact hw
  | configStation st station cls quota =>
    refine h.engineTake (fun _ w hw => ?_) taken
    unfold configStationEffect
    repeat' split
    all_goals exact hw
  | configClock st sourceEdge rate silence frame settle =>
    exact h.engineTake (fun _ _ hw => hw.configClockEffect st sourceEdge rate silence frame settle) taken
  | configSupply st index =>
    refine h.engineTake (fun _ w hw => ?_) taken
    unfold configSupplyEffect
    repeat' split
    all_goals exact hw
  | clearFault st channel => exact h.engineTake (fun _ _ hw => hw.clearFaultEffect st channel) taken
  | revoke st handle => exact h.engineTake (fun _ _ hw => hw.revokeEffect st handle) taken
  | restart st => exact h.engineTake (fun _ _ hw => hw.restartEffect st) taken
  | commandByte p code => cases taken; exact h.writeCycle p _
  | dataByte p b => cases taken; exact h.writeCycle p _
  | unknownCommandByte p b => cases taken; exact h.writeCycle p _
  | abort p => cases taken; exact h.writeCycle p _
  | replay p => cases taken; exact h.writeCycle p _
  | statusRead p => cases taken; exact h.readCycle p _
  | dataRead p => cases taken; exact h.readCycle p _
  | leaseTick => exact h.outsideReset h.internalTick taken
  | leaseExpiry => exact h.outsideReset h.expireDue taken
  | pulseEnd n => exact h.outsideReset (u := s.setChannel n _) h taken
  | frameStart => exact h.outsideReset h.startFrame taken
  | senseChange n level =>
    cases taken
    split <;> exact h
  | settleEnd n => exact h.outsideReset (u := s.settleEnd n) h taken
  | senseFault n => exact h.outsideReset (h.senseFault n) taken
  | qualifyingEdge edge =>
    cases taken
    repeat' split
    · exact h
    · refine State.LeasesLawful.takeEdge ?_
      exact h
    · exact h
  | silenceExpiry => exact h.outsideReset h.silenceExpiry taken
  | supplyBelowVt mv => cases taken; exact h.supplyTo mv
  | supplyAboveVt mv => cases taken; exact h.supplyTo mv
  | supplyLowEvent => exact h.outsideReset h.supplyLow taken
  | supplyRise mv =>
    cases taken
    split
    · exact h.supplyTo mv
    · exact h.supplyTo mv
  | recoveryExpiry => exact h.outsideReset h.recoveryExpiry taken
  | deviceReset condition =>
    cases condition with
    | supply mv => cases taken; exact h.supplyTo mv
    | pin => cases taken; exact h
  | resetEnd =>
    cases taken
    split
    · exact s.endReset_leasesLawful
    · exact h
  | lastResetConditionClears condition =>
    cases condition with
    | supply mv => cases taken; exact h.supplyTo mv
    | pin => cases taken; exact h

/-- Settles O8: the laws of the lease records are kept by every command, by the engine's own take, and by the passing of time. -/
theorem stepKeepsLeaseLaws : Obligations.StepKeepsLeaseLaws := by
  unfold Obligations.StepKeepsLeaseLaws
  intro s t h taken
  exact step_keeps (P := State.LeasesLawful) (fun _ _ hs => hs) exec_keeps_leasesLawful
    (fun _ hs => hs.passMicrosecond) h taken

end Sys2Proof.Machine
end

section
/-! PROOFS. The state right after reset, its soundness, and a sound state that a step leads out of the laws. -/

namespace Sys2Proof.Machine

open Sys2Proof

/-! ## The state right after reset -/

/-- Settles O5: each table is one record repeated, and the other fields stand in the definition. -/
theorem resetValues : Obligations.ResetValues := by
  refine ⟨fun i => ?_, rfl, fun n => ?_, fun st => ?_, rfl, rfl, rfl, rfl, rfl, fun p => ?_, rfl, rfl⟩
  · exact Vector.getElem_replicate i.isLt
  · exact Vector.getElem_replicate n.isLt
  · exact Vector.getElem_replicate st.isLt
  · exact Vector.getElem_replicate p.isLt

/-- Settles O6: each law is decided on the state itself. -/
theorem resetIsSound : Obligations.ResetIsSound := by
  unfold Obligations.ResetIsSound
  refine ⟨?_, ?_, ?_, ?_, ?_, ?_, ?_, ?_, ?_, ?_, ?_⟩ <;> decide

/-! ## A sound state that a step leads out of the laws -/

/-- A partial request of 26 bytes whose command byte, 0x00, names no request. The law of ASSEMBLING allows it: it asks of the length known
that it is not yet reached, and here none is ever known, since the law does not ask that the first byte name a request. A port does not
come to this of itself, as it answers such a byte at once (R148). -/
def namelessPort : Port := ⟨.assembling, List.replicate 26 0x00#8, none, [], 0, .none, none⟩

/-- The part after reset with the nameless partial request in SP0, and one more data byte on its way. -/
def namelessState : State := { State.reset.setPort 0 namelessPort with pending := [.dataByte 0 0x00#8] }

theorem namelessState_sound : namelessState.Sound := by
  refine ⟨?_, ?_, ?_, ?_, ?_, ?_, ?_, ?_, ?_, ?_, ?_⟩ <;> decide

/-- The data byte is the 27th of a request that is still partial (R147). -/
theorem step_namelessState :
    step namelessState = .next (State.reset.setPort 0 { namelessPort with request := List.replicate 27 0x00#8 }) := by
  rfl

/-- Refutes O7: the laws of the ports are not kept from every sound state. A partial request of 26 bytes whose first byte names no request
is sound, and a data byte makes it 27 bytes, where the law of ASSEMBLING allows 26. -/
theorem not_stepKeepsSound : ¬ Obligations.StepKeepsSound := by
  unfold Obligations.StepKeepsSound
  intro keeps
  obtain ⟨-, -, -, -, -, -, -, -, -, ports, -⟩ := keeps _ _ namelessState_sound step_namelessState
  obtain ⟨-, assembling, -⟩ := ports 0
  obtain ⟨-, -, -, bound, -⟩ := assembling (by decide)
  exact absurd bound (by decide)

end Sys2Proof.Machine
end

section
/-! PROOFS. The checks of every request: the table of the statements is the model's own list, and what it refuses the effect refuses. -/

namespace Sys2Proof.Machine

open Sys2Proof

/-! ## The first check that fails -/

theorem firstRefusal_cons (fails : Bool) (status : Byte) (rest : List (Bool × Byte)) :
    firstRefusal ((fails, status) :: rest) = if fails then some status else firstRefusal rest := by
  cases fails <;> rfl

/-- A check of the model as the table of the statements gives it. -/
def tabled (check : Bool × Status) : Bool × Byte := (check.1, check.2.toByte)

/-- The first check of the model's own list that fails gives the status that the table gives. -/
theorem firstRefusal_tabled (checks : List (Bool × Status)) :
    firstRefusal (checks.map tabled) = (firstFailing checks).map Status.toByte := by
  induction checks with
  | nil => rfl
  | cons check rest ih =>
    obtain ⟨fails, status⟩ := check
    rw [List.map_cons, tabled, firstRefusal_cons, ih]
    cases fails <;> rfl

theorem firstRefusal_append (checks more : List (Bool × Byte)) :
    firstRefusal (checks ++ more) = (firstRefusal checks).or (firstRefusal more) := by
  induction checks with
  | nil => rfl
  | cons check rest ih =>
    obtain ⟨fails, status⟩ := check
    rw [List.cons_append, firstRefusal_cons, firstRefusal_cons, ih]
    cases fails <;> rfl

/-- The first step of a take has no part in the checks. -/
theorem State.refusals_beginTake (s : State) (st : Station) (i : Instr) : (s.beginTake st).refusals i = s.refusals i := by
  cases i <;> rfl

/-- The effect refuses what the table of checks refuses: the status is the first that fails, and no state changes (R27, R164, R165). -/
def Refuses (i : Instr) (effect : State → Answer) : Prop :=
  ∀ (s : State) (status : Byte), firstRefusal (s.refusals i) = some status → effect s = (s, refusalReply i status)

/-- A request that is refused completes with nothing changed. -/
theorem Refuses.completes {i : Instr} {effect : State → Answer} (h : Refuses i effect) {s : State} {st : Station}
    {status : Byte} (hr : s.Ready i st) (he : exec i s = engineTake st i.requestBytes effect s)
    (fails : firstRefusal (s.refusals i) = some status) : Completes i s st (refusalReply i status) s :=
  .of_effect hr he (h _ _ (by rw [State.refusals_beginTake]; exact fails)) ⟨rfl, rfl⟩ (.beginTake s st)

/-! ## Operands out of range -/

theorem channelOf?_eq_none {b : Byte} : channelOf? b = none ↔ 32 ≤ b.toNat := by
  unfold channelOf?; split <;> simp <;> omega

theorem stationOf?_eq_none {b : Byte} : stationOf? b = none ↔ 4 ≤ b.toNat := by
  unfold stationOf?; split <;> simp <;> omega

theorem indexOf4?_eq_none {b : Byte} : indexOf4? b = none ↔ 4 ≤ b.toNat := by
  unfold indexOf4?; split <;> simp <;> omega

theorem indexOf4?_eq_some {b : Byte} {c : Fin 4} : indexOf4? b = some c ↔ b.toNat = c.val := by
  unfold indexOf4?; split
  · simp [Fin.ext_iff]
  · have := c.isLt; simp; omega

theorem Handle.ofByte?_eq_none {b : Byte} : Handle.ofByte? b = none ↔ 0xC0 ≤ b.toNat := by
  unfold Handle.ofByte?; split <;> simp <;> omega

theorem configOf?_eq_none {b : Byte} : configOf? b = none ↔ b.toNat % 4 = 3 ∨ 8 ≤ b.toNat := by
  unfold configOf?
  split
  · next undefined => simp [undefined]
  · next defined =>
    have code : b.toNat % 4 = 0 ∨ b.toNat % 4 = 1 ∨ b.toNat % 4 = 2 ∨ b.toNat % 4 = 3 := by omega
    rcases code with e | e | e | e <;> simp [Steady.ofCode?, e] <;> omega

theorem decide_isNone {α : Type} (o : Option α) (p : Prop) [Decidable p] (h : o = none ↔ p) : o.isNone = decide p := by
  cases o <;> simp_all

/-- Some lease has the property, as the statements say it and as the model computes it. -/
theorem State.someLease_iff (s : State) (p : Lease → Bool) : s.someLease p ↔ s.anyLease p = true := by
  simp [State.anyLease, State.slotHas_iff, State.someLease]

theorem State.decide_someLease (s : State) (p : Lease → Bool) : decide (s.someLease p) = s.anyLease p := by
  simp [s.someLease_iff p]

theorem State.named_of_ofByte? {s : State} {handle : Byte} {h : Handle} (hb : Handle.ofByte? handle = some h) :
    s.named handle = s.lookup h := by
  rw [State.named_eq, hb, Option.bind_some]

theorem State.namedHas_of_lookup {s : State} {handle : Byte} {h : Handle} {l : Lease} (hb : Handle.ofByte? handle = some h)
    (hl : s.lookup h = some l) (p : Lease → Bool) : s.namedHas handle p = p l := by
  rw [State.namedHas, State.named_of_ofByte? hb, hl]

/-! ## The requests -/

theorem queryChannelEffect_refuses (st : Station) (channel : Byte) :
    Refuses (.queryChannel st channel) (queryChannelEffect channel) := by
  intro s status h
  simp only [State.refusals, firstRefusal_cons, decide_eq_true_eq] at h
  unfold queryChannelEffect
  split at h
  · next range => cases h; rw [channelOf?_eq_none.2 range]; rfl
  · cases h

/-- The checks of a handle: it names a slot, and a lease in it (R7). -/
theorem firstRefusal_handle {s : State} {handle status : Byte} {more : List (Bool × Byte)}
    (h : firstRefusal ((decide (0xC0 ≤ handle.toNat), 0x11#8) :: (decide (s.named handle = none), 0x20#8) :: more) =
      some status) :
    (Handle.ofByte? handle = none ∧ status = 0x11#8) ∨
      (∃ e, Handle.ofByte? handle = some e ∧ s.lookup e = none ∧ status = 0x20#8) ∨
      ∃ e l, Handle.ofByte? handle = some e ∧ s.lookup e = some l ∧ firstRefusal more = some status := by
  rw [firstRefusal_cons, firstRefusal_cons] at h
  cases hb : Handle.ofByte? handle with
  | none =>
    have range := Handle.ofByte?_eq_none.1 hb
    simp only [range, decide_true, if_true, Option.some.injEq] at h
    exact .inl ⟨rfl, h.symm⟩
  | some e =>
    have range : ¬ 0xC0 ≤ handle.toNat := fun k => by simp [Handle.ofByte?_eq_none.2 k] at hb
    simp only [range, decide_false, Bool.false_eq_true, if_false, State.named_of_ofByte? hb] at h
    cases hl : s.lookup e with
    | none =>
      simp only [hl, decide_true, if_true, Option.some.injEq] at h
      exact .inr (.inl ⟨e, rfl, hl, h.symm⟩)
    | some l =>
      simp only [hl, reduceCtorEq, decide_false, Bool.false_eq_true, if_false] at h
      exact .inr (.inr ⟨e, l, rfl, hl, h⟩)

theorem queryLeaseEffect_refuses (st : Station) (handle : Byte) :
    Refuses (.queryLease st handle) (queryLeaseEffect handle) := by
  intro s status h
  unfold queryLeaseEffect
  rcases firstRefusal_handle h with ⟨hb, rfl⟩ | ⟨e, hb, hl, rfl⟩ | ⟨e, l, hb, hl, h⟩
  · rw [hb]; rfl
  · simp only [hb, hl]; rfl
  · cases h

theorem listLeasesEffect_refuses (st : Station) (station : Byte) :
    Refuses (.listLeases st station) (listLeasesEffect station) := by
  intro s status h
  simp only [State.refusals, firstRefusal_cons, decide_eq_true_eq] at h
  unfold listLeasesEffect
  split at h
  · next range => cases h; rw [stationOf?_eq_none.2 range]; rfl
  · cases h

/-- The check that the station is attached, which stands first (R105). -/
theorem firstRefusal_detached {s : State} {st : Station} {status : Byte} {more : List (Bool × Byte)}
    (h : firstRefusal ((!(s.station st).attached, 0x13#8) :: more) = some status) :
    (s.detached st = true ∧ status = 0x13#8) ∨ (s.detached st = false ∧ firstRefusal more = some status) := by
  rw [firstRefusal_cons] at h
  split at h
  · next d => cases h; exact .inl ⟨d, rfl⟩
  · next d => exact .inr ⟨by simpa [State.detached] using d, h⟩

theorem detachEffect_refuses (st : Station) : Refuses (.detach st) (detachEffect st) := by
  intro s status h
  rcases firstRefusal_detached h with ⟨d, rfl⟩ | ⟨d, h⟩
  · unfold detachEffect; rw [if_pos d]; rfl
  · cases h

theorem pollEffect_refuses (st : Station) : Refuses (.poll st) (pollEffect st) := by
  intro s status h
  rcases firstRefusal_detached h with ⟨d, rfl⟩ | ⟨d, h⟩
  · unfold pollEffect; rw [if_pos d]; rfl
  · cases h

theorem renewAllEffect_refuses (st : Station) : Refuses (.renewAll st) (renewAllEffect st) := by
  intro s status h
  rcases firstRefusal_detached h with ⟨d, rfl⟩ | ⟨d, h⟩
  · unfold renewAllEffect; rw [if_pos d]; rfl
  · cases h

/-- Where the table is the model's own list of checks, the status of the table is that of the first check that fails. -/
theorem firstFailing_of_tabled {checks : List (Bool × Status)} {table : List (Bool × Byte)} {status : Byte}
    (h : firstRefusal table = some status) (same : table = checks.map tabled) :
    ∃ failing, firstFailing checks = some failing ∧ failing.toByte = status := by
  rwa [same, firstRefusal_tabled, Option.map_eq_some_iff] at h

theorem setMaskEffect_refuses (st : Station) (mask : Byte) : Refuses (.setMask st mask) (setMaskEffect st mask) := by
  intro s status h
  have same : s.refusals (.setMask st mask) = (setMaskChecks st mask s).map tabled := by
    simp only [State.refusals, State.decide_someLease]; rfl
  obtain ⟨failing, fails, rfl⟩ := firstFailing_of_tabled h same
  unfold setMaskEffect; rw [fails]; rfl

theorem releaseEffect_refuses (st : Station) (handle : Byte) : Refuses (.release st handle) (releaseEffect st handle) := by
  intro s status h
  unfold releaseEffect
  rcases firstRefusal_detached h with ⟨d, rfl⟩ | ⟨d, h⟩
  · rw [if_pos d]; rfl
  · rw [d]
    rcases firstRefusal_handle h with ⟨hb, rfl⟩ | ⟨e, hb, hl, rfl⟩ | ⟨e, l, hb, hl, h⟩
    · rw [hb]; rfl
    · simp only [hb, hl]; rfl
    · rw [firstRefusal_cons, State.namedHas_of_lookup hb hl] at h
      simp only [hb, hl]
      by_cases holder : l.holder = st
      · simp only [holder, ne_eq, not_true_eq_false, decide_false, Bool.false_eq_true, if_false] at h
        cases h
      · simp only [holder, ne_eq, not_false_eq_true, decide_true, if_true, Option.some.injEq] at h
        subst h
        simp only [holder, if_false]; rfl

theorem renewEffect_refuses (st : Station) (handle : Byte) (newTerm : Word) :
    Refuses (.renew st handle newTerm) (renewEffect st handle newTerm) := by
  intro s status h
  unfold renewEffect
  rcases firstRefusal_detached h with ⟨d, rfl⟩ | ⟨d, h⟩
  · rw [if_pos d]; rfl
  · rw [d]
    rcases firstRefusal_handle h with ⟨hb, rfl⟩ | ⟨e, hb, hl, rfl⟩ | ⟨e, l, hb, hl, h⟩
    · rw [hb]; rfl
    · simp only [hb, hl]; rfl
    · obtain ⟨failing, fails, rfl⟩ := firstFailing_of_tabled (checks := renewChecks st newTerm l) h (by
        simp [State.namedHas_of_lookup hb hl, renewChecks, tabled, Status.toByte, bne, beq_eq_decide])
      simp only [hb, hl, fails]; rfl

/-- The two checks that stand first in a supervisor's request are the model's own (R160). -/
theorem State.supervisorChecks_tabled (s : State) (st : Station) (more : List (Bool × Byte)) :
    (!(s.station st).attached, 0x13#8) :: (decide (st ≠ 0), 0x14#8) :: more =
      (s.supervisorChecks st).map tabled ++ more := by
  simp [State.supervisorChecks, tabled, State.detached, Status.toByte, bne, beq_eq_decide]

theorem firstRefusal_supervisor {s : State} {st : Station} {status : Byte} {more : List (Bool × Byte)}
    (h : firstRefusal ((!(s.station st).attached, 0x13#8) :: (decide (st ≠ 0), 0x14#8) :: more) = some status) :
    (∃ failing, firstFailing (s.supervisorChecks st) = some failing ∧ failing.toByte = status) ∨
      (firstFailing (s.supervisorChecks st) = none ∧ firstRefusal more = some status) := by
  rw [State.supervisorChecks_tabled, firstRefusal_append, firstRefusal_tabled] at h
  cases sup : firstFailing (s.supervisorChecks st) with
  | none => rw [sup] at h; exact .inr ⟨rfl, h⟩
  | some failing =>
    rw [sup] at h
    exact .inl ⟨failing, rfl, Option.some.inj h⟩

theorem restartEffect_refuses (st : Station) : Refuses (.restart st) (restartEffect st) := by
  intro s status h
  unfold restartEffect
  rcases firstRefusal_supervisor h with ⟨failing, fails, rfl⟩ | ⟨passes, h⟩
  · rw [fails]; rfl
  · cases h

theorem clearFaultEffect_refuses (st : Station) (channel : Byte) :
    Refuses (.clearFault st channel) (clearFaultEffect st channel) := by
  intro s status h
  unfold clearFaultEffect
  rcases firstRefusal_supervisor h with ⟨failing, fails, rfl⟩ | ⟨passes, h⟩
  · rw [fails]; rfl
  · rw [firstRefusal_cons] at h
    split at h
    · next range =>
      cases h
      simp only [passes, channelOf?_eq_none.2 (of_decide_eq_true range)]; rfl
    · cases h

theorem configSupplyEffect_refuses (st : Station) (index : Byte) :
    Refuses (.configSupply st index) (configSupplyEffect st index) := by
  intro s status h
  unfold configSupplyEffect
  rcases firstRefusal_supervisor h with ⟨failing, fails, rfl⟩ | ⟨passes, h⟩
  · rw [fails]; rfl
  · rw [firstRefusal_cons] at h
    split at h
    · next range =>
      cases h
      simp only [passes, indexOf4?_eq_none.2 (of_decide_eq_true range)]; rfl
    · cases h

theorem revokeEffect_refuses (st : Station) (handle : Byte) : Refuses (.revoke st handle) (revokeEffect st handle) := by
  intro s status h
  unfold revokeEffect
  rcases firstRefusal_supervisor h with ⟨failing, fails, rfl⟩ | ⟨passes, h⟩
  · rw [fails]; rfl
  · rcases firstRefusal_handle h with ⟨hb, rfl⟩ | ⟨e, hb, hl, rfl⟩ | ⟨e, l, hb, hl, h⟩
    · simp only [passes, hb]; rfl
    · simp only [passes, hb, hl]; rfl
    · rw [firstRefusal_cons, State.namedHas_of_lookup hb hl] at h
      split at h
      · next lapsed =>
        cases h
        simp only [passes, hb, hl, lapsed, if_true]; rfl
      · cases h

theorem configClockEffect_refuses (st : Station) (sourceEdge rate silence frame settle : Byte) :
    Refuses (.configClock st sourceEdge rate silence frame settle)
      (configClockEffect st sourceEdge rate silence frame settle) := by
  intro s status h
  have badArg : configClockBadArg sourceEdge rate silence frame settle =
      decide (4 ≤ sourceEdge.toNat ∨ (sourceEdge.getLsbD 0 = false ∧ (8 ≤ rate.toNat ∨ silence.toNat ≠ 0)) ∨
        (sourceEdge.getLsbD 0 = true ∧ 3 ≤ rate.toNat) ∨ 4 ≤ frame.toNat ∨ settle.toNat = 0 ∨ 15 < settle.toNat) := by
    unfold configClockBadArg clockSourceOf
    cases sourceEdge.getLsbD 0 <;> simp [Bool.or_assoc]
  have same : s.refusals (.configClock st sourceEdge rate silence frame settle) =
      (configClockChecks st sourceEdge rate silence frame settle s).map tabled := by
    simp [State.refusals, State.decide_someLease, configClockChecks, State.supervisorChecks, tabled, State.detached,
      Status.toByte, bne, beq_eq_decide, badArg, State.anyInForce]
  obtain ⟨failing, fails, rfl⟩ := firstFailing_of_tabled h same
  unfold configClockEffect; rw [fails]; rfl

theorem configStationEffect_refuses (st : Station) (station cls quota : Byte) :
    Refuses (.configStation st station cls quota) (configStationEffect st station cls quota) := by
  intro s status h
  unfold configStationEffect
  rcases firstRefusal_supervisor h with ⟨failing, fails, rfl⟩ | ⟨passes, h⟩
  · rw [fails]; rfl
  · rw [firstRefusal_cons] at h
    rw [passes]
    cases ht : stationOf? station with
    | none =>
      have range := stationOf?_eq_none.1 ht
      simp only [range, true_or, decide_true, if_true, Option.some.injEq] at h
      subst h; rfl
    | some t =>
      cases hc : indexOf4? cls with
      | none =>
        have range := indexOf4?_eq_none.1 hc
        simp only [range, true_or, or_true, decide_true, if_true, Option.some.injEq] at h
        subst h; rfl
      | some c =>
        have st_range := stationOf?_eq_some.1 ht
        have cls_range := indexOf4?_eq_some.1 hc
        have := t.isLt
        have := c.isLt
        dsimp only
        split at h
        · next range =>
          simp only [decide_eq_true_eq] at range
          cases h
          rw [if_pos (by omega)]; rfl
        · next range =>
          simp only [decide_eq_true_eq] at range
          rw [if_neg (by omega)]
          have classes : decide (∃ t ∈ stationOf? station, (s.station t).cls.val ≠ cls.toNat ∧ (s.station t).attached = true) =
              (c != (s.station t).cls && (s.station t).attached) := by
            rw [Bool.eq_iff_iff]
            simp [ht, cls_range, Fin.val_inj, eq_comm (a := c)]
          have counts : decide (∃ t ∈ stationOf? station, quota.toNat < s.usedSlots t) =
              decide (quota.toNat < s.usedSlots t) := by simp [ht]
          obtain ⟨failing, fails, rfl⟩ := firstFailing_of_tabled (checks := configStationChecks t c quota.toNat s) h (by
            rw [classes, counts]; rfl)
          rw [fails]; rfl

theorem configChannelEffect_refuses (st : Station) (channel config minClass : Byte) :
    Refuses (.configChannel st channel config minClass) (configChannelEffect st channel config minClass) := by
  intro s status h
  unfold configChannelEffect
  rcases firstRefusal_supervisor h with ⟨failing, fails, rfl⟩ | ⟨passes, h⟩
  · rw [fails]; rfl
  · rw [firstRefusal_cons] at h
    rw [passes]
    by_cases legal : channelOf? channel = none ∨ configOf? config = none ∨ indexOf4? minClass = none
    · have range : 32 ≤ channel.toNat ∨ config.toNat % 4 = 3 ∨ 8 ≤ config.toNat ∨ 4 ≤ minClass.toNat := by
        rw [channelOf?_eq_none, configOf?_eq_none, indexOf4?_eq_none] at legal; omega
      simp only [range, decide_true, if_true, Option.some.injEq] at h
      subst h
      dsimp only
      split
      · simp_all
      · rfl
    · have range : ¬ (32 ≤ channel.toNat ∨ config.toNat % 4 = 3 ∨ 8 ≤ config.toNat ∨ 4 ≤ minClass.toNat) := by
        rw [channelOf?_eq_none, configOf?_eq_none, indexOf4?_eq_none] at legal; omega
      simp only [range, decide_false, Bool.false_eq_true, if_false] at h
      simp only [not_or, ← ne_eq, Option.ne_none_iff_exists'] at legal
      obtain ⟨⟨n, hn⟩, ⟨⟨fallback, senseCheck⟩, hc⟩, ⟨c, hm⟩⟩ := legal
      simp only [hn, hc, hm]
      have inUse : decide (∃ n ∈ channelOf? channel, (s.channel n).isHeld = true ∨
          s.someLease fun l => l.isPending && l.channels.contains n) = s.channelInUse n := by
        simp [hn, State.channelInUse, State.someLease_iff]
      rw [firstRefusal_cons, inUse] at h
      split at h
      · next used => cases h; rw [if_pos used]; rfl
      · cases h

/-! ## DRIVE -/

/-- The legal entries are those that name a drive (R84 step 5). -/
theorem Drive.ofEntry?_isNone (e : DriveEntry) : (Drive.ofEntry? e.mode e.value).isNone = !legalEntry e := by
  obtain ⟨channel, mode, value⟩ := e
  have values : value.toNat = 0 ∨ 1 ≤ value.toNat ∧ value.toNat ≠ 0 := by omega
  simp only [Drive.ofEntry?, legalEntry, ← BitVec.toNat_inj, BitVec.toNat_ofNat]
  repeat' split
  all_goals
    simp
    omega

/-- The first six checks of DRIVE in the table are the model's argument checks (R84 steps 1 to 6). -/
theorem drive_refusals_eq (s : State) (st : Station) (handle count : Byte) (entries : List DriveEntry) :
    s.refusals (.drive st handle count entries) =
      (driveArgumentChecks st handle count entries s).map tabled ++
        [(decide (s.named handle = none), 0x20#8), (s.namedHas handle fun l => decide (l.holder ≠ st), 0x21#8),
          (s.namedHas handle Lease.isPending, 0x23#8), (s.namedHas handle Lease.isLapsed, 0x22#8),
          (s.namedHas handle fun l => entries.any fun e =>
            decide (∀ n ∈ l.channels, n.val ≠ e.channel.toNat), 0x24#8)] := by
  have channels : (fun e : DriveEntry => (channelOf? e.channel).isNone) = fun e => decide (32 ≤ e.channel.toNat) :=
    funext fun e => decide_isNone _ _ channelOf?_eq_none
  have count0 : (count.toNat = 0 ∨ 8 < count.toNat) ↔ (count.toNat < 1 ∨ 8 < count.toNat) := by omega
  simp only [State.refusals, driveArgumentChecks, Drive.ofEntry?_isNone, channels, count0,
    decide_isNone _ _ Handle.ofByte?_eq_none]
  rfl

/-- With every entry legal, an entry is out of the lease exactly where its channel's number is (R84 step 11). -/
theorem driveEntries_notInLease {entries : List DriveEntry} {l : Lease}
    (inRange : (entries.any fun e => (channelOf? e.channel).isNone) = false)
    (legal : (entries.any fun e => (Drive.ofEntry? e.mode e.value).isNone) = false) :
    ((entries.filterMap DriveEntry.setting?).any fun e => !l.channels.contains e.1) =
      entries.any fun e => decide (∀ n ∈ l.channels, n.val ≠ e.channel.toNat) := by
  rw [List.any_filterMap]
  simp only [List.any_eq_false, Option.isNone_iff_eq_none] at inRange legal
  have set : ∀ e ∈ entries, ∃ n d, DriveEntry.setting? e = some (n, d) ∧ e.channel.toNat = n.val := by
    intro e he
    obtain ⟨n, hn⟩ := Option.ne_none_iff_exists'.1 (inRange e he)
    obtain ⟨d, hd⟩ := Option.ne_none_iff_exists'.1 (legal e he)
    exact ⟨n, d, by rw [DriveEntry.setting?, hn, hd], channelOf?_eq_some.1 hn⟩
  rw [Bool.eq_iff_iff, List.any_eq_true, List.any_eq_true]
  refine exists_congr fun e => and_congr_right fun he => ?_
  obtain ⟨n, d, hs, hn⟩ := set e he
  simp only [hs, hn, Bool.not_eq_true', List.contains_eq_mem, decide_eq_false_iff_not, decide_eq_true_eq, ne_eq,
    Fin.val_inj]
  exact ⟨fun absent m hm e => absent (e ▸ hm), fun absent mem => absent n mem rfl⟩

theorem driveEffect_refuses (st : Station) (handle count : Byte) (entries : List DriveEntry) :
    Refuses (.drive st handle count entries) (driveEffect st handle count entries) := by
  intro s status h
  rw [drive_refusals_eq, firstRefusal_append, firstRefusal_tabled] at h
  unfold driveEffect
  cases args : firstFailing (driveArgumentChecks st handle count entries s) with
  | some failing =>
    rw [args] at h
    cases h; rfl
  | none =>
    rw [args, Option.map_none, Option.none_or] at h
    have passes := firstFailing_eq_none.1 args
    simp only [driveArgumentChecks, List.mem_cons, List.not_mem_nil, or_false, forall_eq_or_imp, forall_eq] at passes
    obtain ⟨-, -, slot, inRange, legal, -⟩ := passes
    cases hb : Handle.ofByte? handle with
    | none => simp [hb] at slot
    | some e =>
      rw [firstRefusal_cons, State.named_of_ofByte? hb] at h
      cases hl : s.lookup e with
      | none =>
        simp only [hl, decide_true, if_true, Option.some.injEq] at h
        subst h
        simp only [hl]; rfl
      | some l =>
        simp only [hl, reduceCtorEq, decide_false, Bool.false_eq_true, if_false] at h
        obtain ⟨failing, fails, rfl⟩ := firstFailing_of_tabled
          (checks := driveLeaseChecks st (entries.filterMap DriveEntry.setting?) l) h (by
            simp only [State.namedHas_of_lookup hb hl, ← driveEntries_notInLease inRange legal]
            simp [driveLeaseChecks, tabled, Status.toByte, bne, beq_eq_decide])
        simp only [hl, fails]; rfl

/-! ## CLAIM -/

/-- The claim can be granted at once (R28), by the model and by the statements. -/
theorem State.grantableAtOnce_iff {s : State} {st : Station} {channels : List ChannelNo} :
    s.grantableAtOnce st channels = true ↔ s.AvailableAtOnce st channels := by
  have waiting : (s.anyLease fun l => l.isPending && decide ((s.station st).cls ≤ (s.station l.holder).cls) &&
      l.lists channels) = false ↔
      ∀ i : SlotNo, ∀ l ∈ s.leaseAt i, l.state = .pending → (∃ n ∈ channels, n ∈ l.channels) →
        (s.station l.holder).cls < (s.station st).cls := by
    rw [← Bool.not_eq_true, ← s.someLease_iff]
    simp only [State.someLease, Bool.and_eq_true, Lease.isPending_iff, decide_eq_true_eq, Lease.lists,
      List.any_eq_true, List.contains_iff_mem]
    constructor
    · intro none i l hl pending shared
      exact lt_of_not_ge fun le => none ⟨i, l, hl, ⟨pending, le⟩, shared⟩
    · rintro lower ⟨i, l, hl, ⟨pending, le⟩, shared⟩
      exact absurd le (not_le_of_gt (lower i l hl pending shared))
  rw [State.grantableAtOnce, Bool.and_eq_true, Bool.not_eq_true', waiting]
  simp [Channel.isIdle]

/-- A channel passes the test of preemption (R30), by the model and by the statements. -/
theorem State.preemptible_iff {s : State} {st : Station} {n : ChannelNo} :
    s.preemptible st n = true ↔ (s.channel n).use = .idle ∨
      ∃ h ∈ (s.channel n).holding, ∃ l ∈ s.lookup h, (s.station l.holder).cls < (s.station st).cls := by
  unfold State.preemptible Channel.holding State.classOf
  cases (s.channel n).use with
  | idle => simp
  | faulted => simp
  | held u =>
    simp only [reduceCtorEq, false_or, Option.mem_def, Option.some.injEq, exists_eq_left']
    cases hl : s.lookup u.lease with
    | none => simp
    | some l => simp

theorem State.all_preemptible_iff {s : State} {st : Station} {channels : List ChannelNo} :
    channels.all (s.preemptible st) = true ↔ s.PreemptionApplies st channels := by
  simp only [List.all_eq_true, State.preemptible_iff, State.PreemptionApplies]

/-- No slot is FREE (R9). -/
theorem State.lowestFree_eq_none {s : State} : s.lowestFree = none ↔ ∀ i, s.leaseAt i ≠ none := by
  simp [State.lowestFree]

/-- The claim can be granted neither at once nor by preemption (R32). -/
def State.claimBlocked (s : State) (st : Station) (options : Byte) (channels : List ChannelNo) : Bool :=
  !s.grantableAtOnce st channels && !(claimPreempt options && channels.all (s.preemptible st))

/-- The refusals of a claim that is blocked (R32 to R34). -/
def blockedRefusals (blocked wait preempt deaf full : Bool) : List (Bool × Byte) :=
  [(blocked && wait && deaf, 0x33#8), (blocked && wait && full, 0x32#8), (blocked && !wait && preempt, 0x41#8),
    (blocked && !wait && !preempt, 0x40#8)]

/-- The checks of CLAIM are the model's own, and after them the refusals of a claim that is blocked. -/
theorem claim_refusals_eq (s : State) (st : Station) (options : Byte) (term : Word) (warnMargin count : Byte)
    (channels : List Byte) :
    s.refusals (.claim st options term warnMargin count channels) =
      (claimArgumentChecks st options term warnMargin count channels s ++
          claimAdmissionChecks st (channelsOf channels) s).map tabled ++
        blockedRefusals (s.claimBlocked st options (channelsOf channels)) (claimWait options) (claimPreempt options)
          (!(s.station st).mask.lease.granted) (decide (16 ≤ s.waitList.length)) := by
  have range : (fun b : Byte => (channelOf? b).isNone) = fun b => decide (32 ≤ b.toNat) :=
    funext fun b => decide_isNone _ _ channelOf?_eq_none
  have count0 : (count.toNat = 0 ∨ 8 < count.toNat) ↔ (count.toNat < 1 ∨ 8 < count.toNat) := by omega
  have hold : s.holdDown = (s.causes.supply || s.causes.clock) := by
    simp [State.holdDown, HoldCauses.isEmpty]
  have blocked : (decide (¬ s.AvailableAtOnce st (channelsOf channels)) &&
      !(options.getLsbD 1 && decide (s.PreemptionApplies st (channelsOf channels)))) =
        s.claimBlocked st options (channelsOf channels) := by
    simp only [State.claimBlocked, ← State.grantableAtOnce_iff, ← State.all_preemptible_iff, Bool.decide_eq_true,
      decide_not, claimPreempt]
  simp only [State.refusals, claimRefusals, blocked, count0, ← range]
  simp [claimArgumentChecks, claimAdmissionChecks, blockedRefusals, tabled, Status.toByte, State.detached, hold,
    claimOptionsUndefined, claimWait, claimPreempt, Channel.isFaulted, beq_eq_decide, Bool.or_assoc,
    decide_isNone _ _ s.lowestFree_eq_none]

/-- A claim that is not blocked meets none of them. -/
theorem firstRefusal_not_blocked (wait preempt deaf full : Bool) :
    firstRefusal (blockedRefusals false wait preempt deaf full) = none := rfl

/-- A claim that is blocked is refused unless it waits, its station hears of the grant, and the wait list has room (R32 to R34). -/
theorem firstRefusal_blocked (wait preempt deaf full : Bool) :
    firstRefusal (blockedRefusals true wait preempt deaf full) =
      if wait then (if deaf then some 0x33#8 else if full then some 0x32#8 else none)
      else if preempt then some 0x41#8 else some 0x40#8 := by
  revert wait preempt deaf full
  decide

/-- The outcome of a claim that is blocked (R32 to R34). -/
theorem claimOutcome_blocked {s : State} {options : Byte} {i : SlotNo} {l : Lease}
    (blocked : s.claimBlocked l.holder options l.channels = true) :
    claimOutcome options i l s =
      if claimWait options then
        if !(s.station l.holder).mask.lease.granted then claimRefused s .noNotice
        else if 16 ≤ s.waitList.length then claimRefused s .waitFull
        else claimQueued s i l
      else if claimPreempt options then claimRefused s .outranked
      else claimRefused s .busyChannel := by
  simp only [State.claimBlocked, Bool.and_eq_true, Bool.not_eq_true'] at blocked
  simp only [claimOutcome, blocked.1, blocked.2, Bool.false_eq_true, if_false]

/-- An admitted claim comes to its outcome in the lowest-numbered FREE slot (R25, R26). -/
theorem claimEffect_admitted {s : State} {st : Station} {options : Byte} {term : Word} {warnMargin count : Byte}
    {channels : List Byte} {i : SlotNo} (free : s.lowestFree = some i)
    (admitted : firstFailing (claimArgumentChecks st options term warnMargin count channels s ++
      claimAdmissionChecks st (channelsOf channels) s) = none) :
    claimEffect st options term warnMargin count channels s =
      claimOutcome options i (Lease.ofClaim st term warnMargin (channelsOf channels)) s := by
  simp only [claimEffect, admitted, free]

/-- An admitted claim has a FREE slot for its lease (R26 step 11). -/
theorem claimAdmission_lowestFree {s : State} {st : Station} {options : Byte} {term : Word} {warnMargin count : Byte}
    {channels : List Byte}
    (admitted : firstFailing (claimArgumentChecks st options term warnMargin count channels s ++
      claimAdmissionChecks st (channelsOf channels) s) = none) : ∃ i, s.lowestFree = some i := by
  have passes := firstFailing_eq_none.1 admitted (s.lowestFree.isNone, .noSlot) (by simp [claimAdmissionChecks])
  exact Option.ne_none_iff_exists'.1 fun none => by simp [none] at passes

theorem claimEffect_refuses (st : Station) (options : Byte) (term : Word) (warnMargin count : Byte)
    (channels : List Byte) :
    Refuses (.claim st options term warnMargin count channels)
      (claimEffect st options term warnMargin count channels) := by
  intro s status h
  rw [claim_refusals_eq, firstRefusal_append, firstRefusal_tabled] at h
  cases admitted : firstFailing (claimArgumentChecks st options term warnMargin count channels s ++
      claimAdmissionChecks st (channelsOf channels) s) with
  | some failing =>
    rw [admitted] at h
    cases h
    unfold claimEffect; rw [admitted]; rfl
  | none =>
    rw [admitted, Option.map_none, Option.none_or] at h
    obtain ⟨i, free⟩ := claimAdmission_lowestFree admitted
    rw [claimEffect_admitted free admitted]
    cases blocked : s.claimBlocked st options (channelsOf channels) with
    | false => rw [blocked, firstRefusal_not_blocked] at h; cases h
    | true =>
      rw [blocked, firstRefusal_blocked] at h
      rw [claimOutcome_blocked (l := Lease.ofClaim st term warnMargin (channelsOf channels)) blocked]
      simp only [Lease.ofClaim]
      repeat' split at h
      all_goals cases h
      · next wait deaf => simp only [wait, deaf, if_true]; rfl
      · next wait deaf full =>
        simp only [wait, deaf, of_decide_eq_true full, if_true]; rfl
      · next wait preempt => simp only [wait, preempt, if_true]; rfl
      · next wait preempt => simp only [wait, preempt]; rfl

/-- Settles O24: for each request, the table of its checks is the model's own list, read through the handle where it has one. -/
theorem refusedRequests : Obligations.RefusedRequests := by
  unfold Obligations.RefusedRequests
  intro s i st status ready fails
  have station := ready.2.1
  cases i <;> simp only [Instr.request?, Option.some.injEq, Prod.mk.injEq, reduceCtorEq] at station <;>
    obtain ⟨rfl, -⟩ := station
  case readStatus => cases fails
  case attach => cases fails
  case queryChannel => exact (queryChannelEffect_refuses _ _).completes ready rfl fails
  case queryLease => exact (queryLeaseEffect_refuses _ _).completes ready rfl fails
  case listLeases => exact (listLeasesEffect_refuses _ _).completes ready rfl fails
  case detach => exact (detachEffect_refuses _).completes ready rfl fails
  case setMask => exact (setMaskEffect_refuses _ _).completes ready rfl fails
  case poll => exact (pollEffect_refuses _).completes ready rfl fails
  case claim => exact (claimEffect_refuses _ _ _ _ _ _).completes ready rfl fails
  case renew => exact (renewEffect_refuses _ _ _).completes ready rfl fails
  case renewAll => exact (renewAllEffect_refuses _).completes ready rfl fails
  case drive => exact (driveEffect_refuses _ _ _ _).completes ready rfl fails
  case release => exact (releaseEffect_refuses _ _).completes ready rfl fails
  case configChannel => exact (configChannelEffect_refuses _ _ _ _).completes ready rfl fails
  case configStation => exact (configStationEffect_refuses _ _ _ _).completes ready rfl fails
  case configClock => exact (configClockEffect_refuses _ _ _ _ _ _).completes ready rfl fails
  case configSupply => exact (configSupplyEffect_refuses _ _).completes ready rfl fails
  case clearFault => exact (clearFaultEffect_refuses _ _).completes ready rfl fails
  case revoke => exact (revokeEffect_refuses _ _).completes ready rfl fails
  case restart => exact (restartEffect_refuses _).completes ready rfl fails

end Sys2Proof.Machine
end

section
/-! PROOFS. The queries of leases: QUERY_LEASE and LIST_LEASES report as R168 lays their replies out. -/

namespace Sys2Proof.Machine

open Sys2Proof

/-! ## Handles and their bytes -/

/-- The byte of the handle that a byte names is that byte (R5). -/
theorem Handle.toByte_of_ofByte? {b : Byte} {h : Handle} (hb : Handle.ofByte? b = some h) : h.toByte = b := by
  unfold Handle.ofByte? at hb
  split at hb
  · cases hb
    apply BitVec.eq_of_toNat_eq
    have := b.isLt
    simp only [Handle.toByte, byteOf, BitVec.toNat_ofNat]
    omega
  · cases hb

/-- Distinct handles have distinct bytes (R5). -/
theorem Handle.toByte_injective : Function.Injective Handle.toByte := by
  rintro ⟨⟨i, hi⟩, ⟨g, hg⟩⟩ ⟨⟨j, hj⟩, ⟨k, hk⟩⟩ e
  have e := congrArg BitVec.toNat e
  simp only [Handle.toByte, byteOf, BitVec.toNat_ofNat] at e
  obtain rfl : i = j := by omega
  obtain rfl : g = k := by omega
  rfl

/-- The handle of a slot, as its byte is laid out (R5). -/
theorem State.handleAt_toByte (s : State) (i : SlotNo) :
    (s.handleAt i).toByte = BitVec.ofNat 8 (8 * i.val + (s.slot i).gen.val) := by
  rw [Handle.toByte, byteOf, State.handleAt, Nat.mul_comm]

/-- A list and its bytes have an entry at the same place. -/
theorem idxOf_map_toByte (entries : List Handle) (h : Handle) :
    (entries.map Handle.toByte).idxOf h.toByte = entries.idxOf h := by
  induction entries with
  | nil => rfl
  | cons e rest ih =>
    simp only [List.map_cons, List.idxOf_cons, ih, beq_eq_decide, Handle.toByte_injective.eq_iff]

/-- A word in two bytes, most significant byte first (R164). -/
theorem twoBytes_toNat (w : Word) : twoBytes w.toNat = [w.extractLsb' 8 8, w.extractLsb' 0 8] := by
  have high : byteOf (w.toNat / 256) = w.extractLsb' 8 8 := by
    apply BitVec.eq_of_toNat_eq
    simp [byteOf, BitVec.extractLsb'_toNat, Nat.shiftRight_eq_div_pow]
  have low : byteOf w.toNat = w.extractLsb' 0 8 := by
    apply BitVec.eq_of_toNat_eq
    simp [byteOf, BitVec.extractLsb'_toNat]
  rw [twoBytes, high, low]

/-- A lease notice set as its bits add up (R169). -/
theorem LeaseNotices.toByte_eq (n : LeaseNotices) :
    n.toByte = BitVec.ofNat 8 ((if n.granted then 1 else 0) + (if n.warning then 2 else 0) + if n.lapsed then 4 else 0) := by
  obtain ⟨granted, warning, lapsed⟩ := n
  revert granted warning lapsed
  decide

/-! ## QUERY_LEASE -/

/-- The fields of a lease in the layout of R168. -/
theorem State.leaseFields_eq (s : State) (h : Handle) (l : Lease) :
    s.leaseFields h l =
      [h.toByte, BitVec.ofNat 8 l.holder.val] ++
        (match l.state with
          | .pending => [0x01#8, 0x00#8]
          | .held => [0x02#8, 0x00#8]
          | .lapsed cause => [0x03#8, cause.toByte]) ++
        [BitVec.ofNat 8 (l.term / 256), BitVec.ofNat 8 l.term, BitVec.ofNat 8 (l.remaining / 256),
          BitVec.ofNat 8 l.remaining, BitVec.ofNat 8 l.warnMargin, (if l.warned then 0x01#8 else 0x00#8),
          BitVec.ofNat 8 l.renewCount, l.grantTick.extractLsb' 8 8, l.grantTick.extractLsb' 0 8,
          l.renewTick.extractLsb' 8 8, l.renewTick.extractLsb' 0 8, l.notices.toByte,
          (if l.state = .pending then BitVec.ofNat 8 (s.waitPosition h) else 0x00#8),
          BitVec.ofNat 8 l.channels.length] ++
        l.channels.map fun n => BitVec.ofNat 8 n.val := by
  have wait : byteOf (s.waitField h l) = if l.state = .pending then BitVec.ofNat 8 (s.waitPosition h) else 0x00#8 := by
    simp only [State.waitField, Lease.isPending_iff]
    split <;> rfl
  rw [State.leaseFields, twoBytes_toNat, twoBytes_toNat, wait]
  cases l.state <;> rfl

/-- Settles O27: the handle byte is the byte of the lease's own handle, and its place on the wait list is that of the handle. -/
theorem queryLeaseReports : Obligations.QueryLeaseReports := by
  unfold Obligations.QueryLeaseReports
  intro s st handle l ready named
  rw [State.named_eq, Option.bind_eq_some_iff] at named
  obtain ⟨h, hb, hl⟩ := named
  have effect : queryLeaseEffect handle (s.beginTake st) = (s.beginTake st, 0x00#8 :: s.leaseFields h l) := by
    simp only [queryLeaseEffect, hb, State.beginTake_lookup, hl]; rfl
  have position : (s.waitList.map Handle.toByte).idxOf handle + 1 = s.waitPosition h := by
    rw [← Handle.toByte_of_ofByte? hb, idxOf_map_toByte, State.waitPosition]
  rw [position, ← Handle.toByte_of_ofByte? hb, ← LeaseNotices.toByte_eq]
  rw [State.leaseFields_eq, Handle.toByte_of_ofByte? hb] at effect
  rw [Handle.toByte_of_ofByte? hb]
  exact .of_effect ready rfl effect ⟨rfl, rfl⟩ (.beginTake s st)

/-! ## LIST_LEASES -/

/-- One entry for each member of the list that passes the test. -/
theorem flatMap_filter_eq {α β : Type} (p : α → Bool) (f : α → List β) (l : List α) :
    (l.filter p).flatMap f = l.flatMap fun a => if p a then f a else [] := by
  induction l with
  | nil => rfl
  | cons a rest ih => cases h : p a <;> simp [h, ih]

/-- Settles O28: the slots of the station are those that the count and the entries go through. -/
theorem listLeasesReports : Obligations.ListLeasesReports := by
  unfold Obligations.ListLeasesReports
  intro s st station target ready number
  have effect : listLeasesEffect station (s.beginTake st) = (s.beginTake st,
      0x00#8 :: byteOf (s.slotsOf target).length :: (s.slotsOf target).flatMap s.listEntry) := by
    simp only [listLeasesEffect, stationOf?_eq_some.2 number]; rfl
  rw [State.slotsOf, flatMap_filter_eq, ← List.countP_eq_length_filter] at effect
  refine .of_effect ready rfl (effect.trans ?_) ⟨rfl, rfl⟩ (.beginTake s st)
  refine Prod.ext rfl (congrArg₂ (fun count entries => 0x00#8 :: byteOf count :: entries) ?_ ?_)
  · refine congrArg (List.countP · _) (funext fun i => ?_)
    rw [State.slotHas]
    cases s.leaseAt i <;> rfl
  · refine congrArg (List.flatMap · _) (funext fun i => ?_)
    rw [State.slotHas, State.listEntry, ← State.handleAt_toByte]
    cases s.leaseAt i with
    | none => rfl
    | some l =>
      simp only [beq_iff_eq, State.leaseDetail]
      split
      · cases l.state <;> rfl
      · rfl

end Sys2Proof.Machine
end

section
/-! PROOFS. Grant evaluation: what its pass has left of the state at each grant, and that the engine's first step has no part in it. -/

namespace Sys2Proof.Machine

open Sys2Proof

/-! ## The first step of a take has no part in what the shared operations do -/

theorem State.mapSlots_beginTake (s : State) (st : Station) (f : SlotNo → Slot → Slot) :
    (s.beginTake st).mapSlots f = (s.mapSlots f).beginTake st := by
  simp only [State.mapSlots, State.beginTake, State.setPort, State.slot, State.port]

theorem State.mapChannels_beginTake (s : State) (st : Station) (f : ChannelNo → Channel → Channel) :
    (s.beginTake st).mapChannels f = (s.mapChannels f).beginTake st := by
  simp only [State.mapChannels, State.beginTake, State.setPort, State.channel, State.port]

theorem State.leave_beginTake (s : State) (st : Station) (p : SlotNo → Bool) :
    (s.beginTake st).leave p = (s.leave p).beginTake st := by
  have listed : (s.beginTake st).listedHeld p = s.listedHeld p := rfl
  rw [State.leave, listed, State.mapChannels_beginTake, State.leave]
  simp only [State.beginTake, State.setPort, State.port]

theorem State.lapse_beginTake (s : State) (st : Station) (p : SlotNo → Bool) (cause : LapseCause) :
    (s.beginTake st).lapse p cause = (s.lapse p cause).beginTake st := by
  rw [State.lapse, State.leave_beginTake, State.mapSlots_beginTake, State.lapse]

theorem State.free_beginTake (s : State) (st : Station) (p : SlotNo → Bool) :
    (s.beginTake st).free p = (s.free p).beginTake st := by
  rw [State.free, State.leave_beginTake, State.mapSlots_beginTake, State.free]

theorem State.create_beginTake (s : State) (st : Station) (i : SlotNo) (l : Lease) :
    (s.beginTake st).create i l = (s.create i l).beginTake st := rfl

theorem State.makeHeld_beginTake (s : State) (st : Station) (i : SlotNo) :
    (s.beginTake st).makeHeld i = (s.makeHeld i).beginTake st := by
  unfold State.makeHeld
  rw [State.beginTake_leaseAt]
  cases s.leaseAt i <;> rfl

theorem State.grantWaiting_beginTake (s : State) (st : Station) (h : Handle) :
    (s.beginTake st).grantWaiting h = (s.grantWaiting h).beginTake st := by
  unfold State.grantWaiting
  rw [State.makeHeld_beginTake, State.mapSlots_beginTake]
  simp only [State.beginTake, State.setPort, State.port]

theorem evaluationPass_beginTake (st : Station) :
    ∀ (entries : List Handle) (passed : List ChannelNo) (s : State),
      evaluationPass entries passed (s.beginTake st) = (evaluationPass entries passed s).beginTake st
  | [], _, _ => rfl
  | h :: rest, passed, s => by
    unfold evaluationPass
    rw [State.beginTake_lookup]
    cases s.lookup h with
    | none => exact evaluationPass_beginTake st rest passed s
    | some l =>
      have same : (s.beginTake st).grantable passed l = s.grantable passed l := rfl
      simp only [same, State.grantWaiting_beginTake, evaluationPass_beginTake st rest]
      split <;> rfl

theorem State.grantEvaluation_beginTake (s : State) (st : Station) :
    (s.beginTake st).grantEvaluation = s.grantEvaluation.beginTake st :=
  evaluationPass_beginTake st s.waitList [] s

theorem State.evaluateIf_beginTake (s : State) (st : Station) (triggered : Bool) :
    (s.beginTake st).evaluateIf triggered = (s.evaluateIf triggered).beginTake st := by
  unfold State.evaluateIf
  rw [State.grantEvaluation_beginTake]
  split <;> rfl

/-- A request completes with the state `u` where its effect, applied after the take's first step, leaves `u` after that step. -/
theorem Completes.of_beginTake {i : Instr} {s : State} {st : Station} {effect : State → Answer} {reply : List Byte}
    {u : State} (hr : s.Ready i st) (he : exec i s = engineTake st i.requestBytes effect s)
    (hv : effect (s.beginTake st) = (u.beginTake st, reply)) (hp : u.ports = s.ports) : Completes i s st reply u := by
  refine .of_effect hr he hv ⟨?_, rfl⟩ (.beginTake u st)
  simp only [State.beginTake, State.setPort, State.port, hp]

/-! ## Grant evaluation -/

/-- The three conditions of R39. -/
theorem State.grantable_iff {s : State} {passed : List ChannelNo} {l : Lease} :
    s.grantable passed l = true ↔
      s.causes.isEmpty = true ∧ (∀ n ∈ l.channels, (s.channel n).use = .idle) ∧ ∀ n ∈ l.channels, n ∉ passed := by
  simp [State.grantable, Channel.isIdle, and_assoc]

/-- The pass goes through the entries one by one: each is passed over, or granted where it is grantable (R39). -/
theorem evaluationPass_induction {P : List Handle → State → Prop}
    (passOver : ∀ h rest t, P (h :: rest) t → P rest t)
    (grant : ∀ h rest passed t l, P (h :: rest) t → t.lookup h = some l → t.grantable passed l = true →
      P rest (t.grantWaiting h)) :
    ∀ (entries : List Handle) (passed : List ChannelNo) (t : State),
      P entries t → P [] (evaluationPass entries passed t)
  | [], _, _, ht => ht
  | h :: rest, passed, t, ht => by
    unfold evaluationPass
    split
    · exact evaluationPass_induction passOver grant rest passed t (passOver h rest t ht)
    · next l hl =>
      split
      · next hg =>
        exact evaluationPass_induction passOver grant rest passed _ (grant h rest passed t l ht hl hg)
      · exact evaluationPass_induction passOver grant rest _ t (passOver h rest t ht)

/-- The lease as a grant from the wait list leaves it (R10, R40). -/
def Lease.grantedWaiting (tick : Word) (l : Lease) : Lease :=
  { l.grantedAt tick with notices := { l.notices with granted := true } }

/-- The lease in slot `i` of `s` was waiting, and waits no longer in `t`. -/
abbrev State.GoneFrom (s t : State) (i : SlotNo) : Prop := s.handleAt i ∈ s.waitList ∧ s.handleAt i ∉ t.waitList

/-- What the pass of grant evaluation has made of `s` by the time it stands at `t` (R39, R40). -/
structure State.PassedTo (s t : State) : Prop where
  waitList : t.waitList.Sublist s.waitList
  gen : ∀ i, (t.slot i).gen = (s.slot i).gen
  free : ∀ i, s.leaseAt i = none → t.leaseAt i = none
  granted : ∀ i l, s.leaseAt i = some l → s.GoneFrom t i → t.leaseAt i = some (l.grantedWaiting s.clock.tickCounter)
  taken : ∀ i l, s.leaseAt i = some l → s.GoneFrom t i →
    ∀ n ∈ l.channels, (s.channel n).use = .idle ∧ t.channel n = (s.channel n).grantedTo (s.handleAt i)
  kept : ∀ i l, s.leaseAt i = some l → ¬ s.GoneFrom t i → t.leaseAt i = some l
  channel : ∀ n, (∀ i l, s.leaseAt i = some l → s.GoneFrom t i → n ∉ l.channels) → t.channel n = s.channel n
  frame : SameBesideTables s t

theorem State.PassedTo.refl (s : State) : s.PassedTo s where
  waitList := List.Sublist.refl _
  gen _ := rfl
  free _ h := h
  granted _ _ _ gone := absurd gone.1 gone.2
  taken _ _ _ gone := absurd gone.1 gone.2
  kept _ _ h _ := h
  channel _ _ := rfl
  frame := SameBesideTables.refl s

theorem State.PassedTo.handleAt {s t : State} (p : s.PassedTo t) (i : SlotNo) : t.handleAt i = s.handleAt i := by
  rw [State.handleAt, State.handleAt, p.gen]

/-- A channel that is still IDLE is as it was. -/
theorem State.PassedTo.channel_of_idle {s t : State} (p : s.PassedTo t) {n : ChannelNo}
    (idle : (t.channel n).use = .idle) : t.channel n = s.channel n := by
  refine p.channel n fun i l hl gone hn => ?_
  rw [(p.taken i l hl gone n hn).2, Channel.grantedTo] at idle
  cases idle

/-- A lease that waits still is as it was. -/
theorem State.PassedTo.lease_of_waiting {s t : State} (p : s.PassedTo t) {i : SlotNo} {l : Lease}
    (waits : s.handleAt i ∈ t.waitList) (hl : t.leaseAt i = some l) : s.leaseAt i = some l := by
  cases hs : s.leaseAt i with
  | none => rw [p.free i hs] at hl; cases hl
  | some k => rw [← p.kept i k hs fun gone => gone.2 waits, hl]

/-- A grant from the wait list changes the lease it grants and no other (R10, R40). -/
theorem State.grantWaiting_leaseAt {s : State} {h : Handle} {l : Lease} (hl : s.leaseAt h.slot = some l) (i : SlotNo) :
    (s.grantWaiting h).leaseAt i = if i = h.slot then some (l.grantedWaiting s.clock.tickCounter) else s.leaseAt i := by
  rw [State.leaseAt, State.grantWaiting_slot hl]
  by_cases e : i = h.slot
  · rw [if_pos e.symm, if_pos e]; rfl
  · rw [if_neg (Ne.symm e), if_neg e]; rfl

/-- With one more grant, the lease granted is gone, and the others are gone that were gone before. -/
theorem State.PassedTo.goneFrom_grantWaiting {s t : State} (p : s.PassedTo t) (distinct : s.waitList.Nodup) {h : Handle}
    (waits : h ∈ t.waitList) (named : s.handleAt h.slot = h) (i : SlotNo) :
    s.GoneFrom (t.grantWaiting h) i ↔ i = h.slot ∨ s.GoneFrom t i := by
  rw [State.GoneFrom, State.grantWaiting_waitList]
  by_cases e : i = h.slot
  · rw [e, named]
    exact iff_of_true ⟨p.waitList.subset waits, (p.waitList.nodup distinct).not_mem_erase⟩ (.inl rfl)
  · have differs : s.handleAt i ≠ h := fun same => e (congrArg Handle.slot same)
    rw [List.mem_erase_of_ne differs, or_iff_right e]

/-- One more grant of the pass (R10, R40). -/
theorem State.PassedTo.grantWaiting {s t : State} (p : s.PassedTo t) (distinct : s.waitList.Nodup) {h : Handle} {l : Lease}
    {passed : List ChannelNo} (waits : h ∈ t.waitList) (hl : t.lookup h = some l)
    (grantable : t.grantable passed l = true) : s.PassedTo (t.grantWaiting h) := by
  obtain ⟨at_slot, names⟩ := State.leaseAt_of_lookup hl
  have named : s.handleAt h.slot = h := (p.handleAt h.slot).symm.trans names
  have before : s.leaseAt h.slot = some l := p.lease_of_waiting (named.symm ▸ waits) at_slot
  obtain ⟨-, idle, -⟩ := State.grantable_iff.1 grantable
  have clock : t.clock = s.clock := p.frame.2.1.1
  have gone_iff := p.goneFrom_grantWaiting distinct waits named
  refine ⟨?_, fun i => ?_, fun i free => ?_, fun i m hm gone => ?_, fun i m hm gone n hn => ?_, fun i m hm stays => ?_,
    fun n outside => ?_, p.frame.trans (t.grantWaiting_frame h)⟩
  · rw [State.grantWaiting_waitList]
    exact List.erase_sublist.trans p.waitList
  · rw [State.grantWaiting_slot at_slot]
    split <;> exact p.gen i
  · have e : i ≠ h.slot := fun e => by rw [e, before] at free; cases free
    rw [State.grantWaiting_leaseAt at_slot, if_neg e]
    exact p.free i free
  · rw [State.grantWaiting_leaseAt at_slot, clock]
    by_cases e : i = h.slot
    · rw [e, before] at hm
      cases hm
      exact if_pos e
    · rw [if_neg e]
      exact p.granted i m hm (((gone_iff i).1 gone).resolve_left e)
  · rw [State.grantWaiting_channel at_slot]
    by_cases e : i = h.slot
    · subst e
      rw [before] at hm
      cases hm
      have same := p.channel_of_idle (idle n hn)
      exact ⟨same ▸ idle n hn, by rw [if_pos hn, same, p.handleAt]⟩
    · obtain ⟨was, now⟩ := p.taken i m hm (((gone_iff i).1 gone).resolve_left e) n hn
      refine ⟨was, ?_⟩
      rw [if_neg fun hn' => by have := idle n hn'; rw [now, Channel.grantedTo] at this; cases this]
      exact now
  · obtain ⟨e, stays⟩ := not_or.1 fun gone => stays ((gone_iff i).2 gone)
    rw [State.grantWaiting_leaseAt at_slot, if_neg e]
    exact p.kept i m hm stays
  · rw [State.grantWaiting_channel at_slot, if_neg (outside h.slot l before ((gone_iff _).2 (.inl rfl)))]
    exact p.channel n fun i m hm gone => outside i m hm ((gone_iff i).2 (.inr gone))

/-- Everything grant evaluation does, where no lease is on the wait list twice. -/
theorem State.grantEvaluation_passedTo {s : State} (distinct : s.waitList.Nodup) : s.PassedTo s.grantEvaluation := by
  have all := evaluationPass_induction (P := fun entries t => s.PassedTo t ∧ entries.Sublist t.waitList)
    (fun h rest t ⟨p, sub⟩ => ⟨p, (List.sublist_cons_self h rest).trans sub⟩)
    (fun h rest passed t l ⟨p, sub⟩ hl grantable => by
      refine ⟨p.grantWaiting distinct (sub.subset List.mem_cons_self) hl grantable, ?_⟩
      simpa using sub.erase h)
    s.waitList [] s ⟨State.PassedTo.refl s, List.Sublist.refl _⟩
  exact all.1

/-- Settles O38: what the pass has left of the state is kept by each grant of it. -/
theorem evaluationGrants : Obligations.EvaluationGrants := by
  unfold Obligations.EvaluationGrants
  intro s sound
  obtain ⟨-, -, ⟨-, distinct, -⟩, -⟩ := sound
  have p := s.grantEvaluation_passedTo distinct
  refine ⟨p.waitList, p.gen, p.free, fun i l hl waits gone => ⟨p.granted i l hl ⟨waits, gone⟩, p.taken i l hl ⟨waits, gone⟩⟩,
    fun i l hl stays => p.kept i l hl fun gone => ?_,
    fun n outside => p.channel n fun i l hl gone => outside i l hl gone.1 gone.2, p.frame⟩
  rcases stays with absent | waits
  · exact absent gone.1
  · exact gone.2 waits

end Sys2Proof.Machine
end

section
/-! PROOFS. The outcomes of an accepted CLAIM, and RESTART. -/

namespace Sys2Proof.Machine

open Sys2Proof

/-! ## The outcomes of an accepted claim -/

/-- A blocked claim is queued exactly where it waits, its station hears of the grant, and the wait list has room (R33, R34). -/
theorem firstRefusal_blocked_eq_none {wait preempt deaf full : Bool} :
    firstRefusal (blockedRefusals true wait preempt deaf full) = none ↔ wait = true ∧ deaf = false ∧ full = false := by
  revert wait preempt deaf full
  decide

theorem claimOutcome_queued {s : State} {options : Byte} {i : SlotNo} {l : Lease}
    (blocked : s.claimBlocked l.holder options l.channels = true) (wait : claimWait options = true)
    (hears : (!(s.station l.holder).mask.lease.granted) = false) (room : ¬ 16 ≤ s.waitList.length) :
    claimOutcome options i l s = claimQueued s i l := by
  rw [claimOutcome_blocked blocked, if_pos wait, if_neg (Bool.eq_false_iff.1 hears), if_neg room]

theorem State.enqueue_beginTake (s : State) (st : Station) (i : SlotNo) (l : Lease) :
    (s.beginTake st).enqueue i l = (s.enqueue i l).beginTake st := rfl

/-- The lowest-numbered FREE slot (R9). -/
theorem State.lowestFree_eq_some {s : State} {i : SlotNo} (free : s.leaseAt i = none)
    (lowest : ∀ j, j < i → s.leaseAt j ≠ none) : s.lowestFree = some i := by
  rw [State.lowestFree, List.find?_eq_some_iff_getElem]
  refine ⟨by simp [free], i.val, by simp, by simp, fun j hj => ?_⟩
  have := lowest ⟨j, by omega⟩ hj
  simpa [Option.isSome_iff_ne_none] using this

/-- An accepted claim passes the model's own checks, and none of the refusals of a blocked claim meets it. -/
theorem State.Accepts.claim {s : State} {st k : Station} {options : Byte} {term : Word} {warnMargin count : Byte}
    {channels : List Byte} (h : s.Accepts (.claim st options term warnMargin count channels) k) :
    firstFailing (claimArgumentChecks st options term warnMargin count channels s ++
        claimAdmissionChecks st (channelsOf channels) s) = none ∧
      firstRefusal (blockedRefusals (s.claimBlocked st options (channelsOf channels)) (claimWait options)
        (claimPreempt options) (!(s.station st).mask.lease.granted) (decide (16 ≤ s.waitList.length))) = none := by
  have passes := h.2
  rw [claim_refusals_eq, firstRefusal_append, firstRefusal_tabled, Option.or_eq_none_iff, Option.map_eq_none_iff] at passes
  exact passes

/-- An accepted claim comes to its outcome when it is taken. -/
theorem claimEffect_accepted {s : State} {st k : Station} {options : Byte} {term : Word} {warnMargin count : Byte}
    {channels : List Byte} {i : SlotNo} (h : s.Accepts (.claim st options term warnMargin count channels) k)
    (free : s.leaseAt i = none) (lowest : ∀ j, j < i → s.leaseAt j ≠ none) :
    claimEffect st options term warnMargin count channels (s.beginTake st) =
      claimOutcome options i (Lease.ofClaim st term warnMargin (channelsOf channels)) (s.beginTake st) := by
  have free : (s.beginTake st).lowestFree = some i := by
    rw [State.beginTake_lowestFree]; exact State.lowestFree_eq_some free lowest
  have admitted : firstFailing (claimArgumentChecks st options term warnMargin count channels (s.beginTake st) ++
      claimAdmissionChecks st (channelsOf channels) (s.beginTake st)) = none := h.claim.1
  exact claimEffect_admitted free admitted

/-- The lease created in a slot is the slot's lease. -/
theorem State.slot_create (s : State) (i : SlotNo) (l : Lease) (k : SlotNo) :
    (s.create i l).slot k = if i = k then ⟨(s.slot i).gen, some l⟩ else s.slot k := by
  rw [State.create, State.slot_setSlot]

theorem State.leaseAt_create (s : State) (i : SlotNo) (l : Lease) : (s.create i l).leaseAt i = some l := by
  rw [State.leaseAt, State.slot_create, if_pos rfl]

/-- A lease created and granted at once (R9, R10). -/
theorem State.create_makeHeld_grantOf (s : State) (i : SlotNo) (l : Lease) :
    GrantOf s ((s.create i l).makeHeld i) i l := by
  have created := s.leaseAt_create i l
  have frame := (s.create i l).makeHeld_frame i
  refine ⟨?_, fun j ne => ?_, fun n => ?_, frame.1, frame.2⟩
  · rw [State.makeHeld_slot created, if_pos rfl, State.slot_create, if_pos rfl]; rfl
  · rw [State.makeHeld_slot created, if_neg (Ne.symm ne), State.slot_create, if_neg (Ne.symm ne)]
  · rw [State.makeHeld_channel created, State.handleAt, State.slot_create, if_pos rfl]; rfl

/-- The reply of a claim that is not refused, as R27 lays it out. -/
theorem claimReply_eq (s : State) (status : Status) (i : SlotNo) (position : Nat) :
    claimReply status (s.handleAt i).toByte position =
      [status.toByte, BitVec.ofNat 8 (8 * i.val + (s.slot i).gen.val), BitVec.ofNat 8 position] := by
  rw [claimReply, State.handleAt_toByte]; rfl

/-- Settles O35: the claim comes to its first outcome. -/
theorem claimGrantedAtOnce : Obligations.ClaimGrantedAtOnce := by
  unfold Obligations.ClaimGrantedAtOnce
  intro s st options term warn count channels i accepted available free lowest
  have grant := s.create_makeHeld_grantOf i (Lease.ofClaim st term warn (channelsOf channels))
  refine ⟨_, grant, .of_beginTake accepted.1 rfl ?_ grant.2.2.2.2.2.2.2.2.1.1⟩
  have atOnce : (s.beginTake st).grantableAtOnce st (channelsOf channels) = true :=
    State.grantableAtOnce_iff.2 available
  rw [claimEffect_accepted accepted free lowest, claimOutcome, Lease.ofClaim, if_pos atOnce, claimGranted,
    State.create_beginTake, State.makeHeld_beginTake, claimReply_eq]
  rfl

/-- The slots whose leases hold a channel of the claim (R31 step 1). -/
theorem State.victims_iff {s : State} {channels : List ChannelNo} {k : SlotNo} :
    s.victims channels k = true ↔ ∃ n ∈ channels, (s.channel n).holding = some (s.handleAt k) := by
  simp [State.victims]

/-- Settles O36: the claim comes to its second outcome. -/
theorem claimPreempts : Obligations.ClaimPreempts := by
  unfold Obligations.ClaimPreempts
  intro s st options term warn count channels i accepted blocked preempt applies free lowest
  have lapse := s.lapse_spec (s.victims (channelsOf channels)) .preempted
  have grant := (s.lapse (s.victims (channelsOf channels)) .preempted).create_makeHeld_grantOf i
    (Lease.ofClaim st term warn (channelsOf channels))
  refine ⟨_, _, _, fun k => State.victims_iff, lapse, grant, ?_⟩
  have evaluated : ∀ u : State, (if ∃ k, s.victims (channelsOf channels) k = true then u.grantEvaluation else u) =
      u.evaluateIf ((List.finRange 24).any (s.victims (channelsOf channels))) := fun u => by simp [State.evaluateIf]
  have frame := (lapse.1.2.2.2.trans grant.2.2.2.2).trans
    (State.evaluateIf_frame _ ((List.finRange 24).any (s.victims (channelsOf channels))))
  rw [evaluated]
  refine .of_beginTake accepted.1 rfl ?_ frame.2.2.2.2.1.1
  have notAtOnce : ¬ (s.beginTake st).grantableAtOnce st (channelsOf channels) = true := fun h =>
    blocked (State.grantableAtOnce_iff.1 h)
  have all : (channelsOf channels).all ((s.beginTake st).preemptible st) = true := State.all_preemptible_iff.2 applies
  have victims : (s.beginTake st).victims (channelsOf channels) = s.victims (channelsOf channels) := rfl
  rw [claimEffect_accepted accepted free lowest, claimOutcome, Lease.ofClaim, if_neg notAtOnce,
    if_pos (by rw [all, claimPreempt, preempt]; rfl), claimPreempted]
  simp only [victims, State.lapse_beginTake, State.create_beginTake, State.makeHeld_beginTake, State.evaluateIf_beginTake,
    claimReply_eq]
  rfl

/-! ## The place of a claim on the wait list -/

/-- An entry inserted by class stands behind every entry of equal or higher class and ahead of every other, where the list stands in the
order of the classes (R36). -/
theorem insertEntry_split {atLeast : Handle → Bool} (h : Handle) {entries : List Handle}
    (sorted : entries.Pairwise fun a b => atLeast b = true → atLeast a = true) :
    ∃ ahead behind, entries = ahead ++ behind ∧ insertEntry atLeast h entries = ahead ++ h :: behind ∧
      (∀ e ∈ ahead, atLeast e = true) ∧ ∀ e ∈ behind, atLeast e = false := by
  induction entries with
  | nil => exact ⟨[], [], rfl, rfl, by simp, by simp⟩
  | cons e rest ih =>
    obtain ⟨first, tail⟩ := List.pairwise_cons.1 sorted
    by_cases some : (e :: rest).any atLeast = true
    · obtain ⟨ahead, behind, split, inserted, above, below⟩ := ih tail
      refine ⟨e :: ahead, behind, by rw [split]; rfl, by rw [insertEntry, if_pos some, inserted]; rfl, ?_, below⟩
      have head : atLeast e = true := by
        rw [List.any_cons, Bool.or_eq_true, List.any_eq_true] at some
        rcases some with here | ⟨b, hb, there⟩
        · exact here
        · exact first b hb there
      exact List.forall_mem_cons.2 ⟨head, above⟩
    · refine ⟨[], e :: rest, rfl, by rw [insertEntry, if_neg some]; rfl, by simp, fun b hb => ?_⟩
      exact Bool.eq_false_iff.2 fun there => some (List.any_eq_true.2 ⟨b, hb, there⟩)

theorem State.entryAtLeast_iff {s : State} {c : Fin 4} {e : Handle} :
    s.entryAtLeast c e = true ↔ ∃ d, s.classOf e = some d ∧ c ≤ d := by
  unfold State.entryAtLeast
  cases s.classOf e <;> simp

/-- An entry that names a PENDING lease has a class. -/
theorem State.classOf_of_namesPending {s : State} {e : Handle} (h : s.namesPending e = true) : ∃ c, s.classOf e = some c := by
  unfold State.namesPending at h
  unfold State.classOf
  cases hl : s.lookup e with
  | none => simp [hl] at h
  | some l => exact ⟨_, rfl⟩

/-- On a lawful wait list no entry of lower class stands ahead of one of a class or higher (R36). -/
theorem State.WaitListLawful.sorted {s : State} (h : s.WaitListLawful) (c : Fin 4) :
    s.waitList.Pairwise fun a b => s.entryAtLeast c b = true → s.entryAtLeast c a = true := by
  obtain ⟨-, -, pending, -, order⟩ := h
  refine order.imp_of_mem fun {a b} ha _ le above => ?_
  obtain ⟨d, hd, cd⟩ := State.entryAtLeast_iff.1 above
  obtain ⟨k, hk⟩ := State.classOf_of_namesPending (pending a ha)
  exact State.entryAtLeast_iff.2 ⟨k, hk, cd.trans (le k hk d hd)⟩

/-- The handle of a FREE slot is not on a lawful wait list. -/
theorem State.WaitListLawful.not_mem_of_free {s : State} (h : s.WaitListLawful) {i : SlotNo} (free : s.leaseAt i = none) :
    s.handleAt i ∉ s.waitList := fun mem => by
  have pending := h.2.2.1 _ mem
  simp [State.namesPending, State.lookup, State.handleAt, free] at pending

/-- Settles O37: the claim comes to its third outcome, and its entry is inserted in a list that stands in the order of the classes. -/
theorem Settled.claimQueued : Obligations.ClaimQueued := by
  unfold Obligations.ClaimQueued
  intro s st options term warn count channels i sound accepted unavailable unpreemptible free lowest
  obtain ⟨-, -, waiting, -⟩ := sound
  obtain ⟨ahead, behind, split, inserted, above, below⟩ :=
    insertEntry_split (s.handleAt i) (waiting.sorted (s.station st).cls)
  have absent : s.handleAt i ∉ ahead := fun mem =>
    waiting.not_mem_of_free free (split ▸ List.mem_append_left behind mem)
  refine ⟨s.enqueue i (Lease.ofClaim st term warn (channelsOf channels)), ahead, behind, split, inserted,
    fun e he c hc => ?_, fun e he c hc => ?_, ?_, fun j ne => ?_, rfl, SameBesideTables.refl s, ?_⟩
  · obtain ⟨d, hd, le⟩ := State.entryAtLeast_iff.1 (above e he)
    rw [hc] at hd
    cases hd; exact le
  · refine lt_of_not_ge fun le => ?_
    have := State.entryAtLeast_iff.2 ⟨c, hc, le⟩
    rw [below e he] at this
    cases this
  · exact (s.slot_create i _ i).trans (if_pos rfl)
  · exact (s.slot_create i _ j).trans (if_neg (Ne.symm ne))
  · have blocked : s.claimBlocked st options (channelsOf channels) = true := by
      rw [State.claimBlocked, Bool.and_eq_true, Bool.not_eq_true', Bool.not_eq_true', Bool.eq_false_iff, Bool.eq_false_iff,
        ne_eq, ne_eq, State.grantableAtOnce_iff, Bool.and_eq_true, State.all_preemptible_iff]
      exact ⟨unavailable, unpreemptible⟩
    have queues := accepted.claim.2
    rw [blocked, firstRefusal_blocked_eq_none] at queues
    obtain ⟨wait, hears, room⟩ := queues
    have position : (s.enqueue i (Lease.ofClaim st term warn (channelsOf channels))).waitPosition (s.handleAt i) =
        ahead.length + 1 := by
      rw [State.waitPosition, State.enqueue, Lease.ofClaim, inserted, List.idxOf_append_of_notMem absent,
        List.idxOf_cons_self]
    refine .of_beginTake accepted.1 rfl ?_ rfl
    have outcome := claimOutcome_queued (s := s.beginTake st) (i := i)
      (l := Lease.ofClaim st term warn (channelsOf channels)) blocked wait hears (of_decide_eq_false room)
    rw [claimEffect_accepted accepted free lowest, outcome, Machine.claimQueued, State.enqueue_beginTake,
      State.beginTake_waitPosition, State.beginTake_handleAt, position, claimReply_eq]
    rfl

/-! ## RESTART -/

/-- The supervisor's two checks pass where every check of its request does (R160). -/
theorem firstFailing_supervisor_of_none {s : State} {st : Station} {more : List (Bool × Byte)}
    (h : firstRefusal ((!(s.station st).attached, 0x13#8) :: (decide (st ≠ 0), 0x14#8) :: more) = none) :
    firstFailing (s.supervisorChecks st) = none := by
  rw [State.supervisorChecks_tabled, firstRefusal_append, firstRefusal_tabled, Option.or_eq_none_iff,
    Option.map_eq_none_iff] at h
  exact h.1

theorem State.restart_beginTake (s : State) (st : Station) : (s.beginTake st).restart = s.restart.beginTake st := by
  unfold State.restart
  rw [State.free_beginTake]
  simp only [State.mapStations, State.beginTake, State.setPort, State.station, State.port]

/-- Settles O60: RESTART is a freeing of every slot with its own changes of the stations, the notices and the count. -/
theorem restartCompletes : Obligations.RestartCompletes := by
  unfold Obligations.RestartCompletes
  intro s st accepted
  have freeing := s.free_spec fun _ => true
  obtain ⟨⟨stations, -⟩, clock, supply, ⟨resetCtl, lastReset, restartCount⟩, ⟨ports, -⟩, outside⟩ := freeing.1.2.2.2
  have count : s.restart.restartCount = if s.restartCount < 255 then s.restartCount + 1 else 255 := by
    simp only [State.restart]
    split <;> omega
  have answer : restartEffect st (s.beginTake st) =
      (s.restart.beginTake st, [0x00#8, BitVec.ofNat 8 s.restart.restartCount]) := by
    have passes : firstFailing ((s.beginTake st).supervisorChecks st) = none := firstFailing_supervisor_of_none accepted.2
    rw [restartEffect, passes, State.restart_beginTake]
    rfl
  refine ⟨_, s.restart, freeing, ?_, ?_, fun k => ?_, rfl, count, ?_, ?_, ?_, ?_, ?_, .of_beginTake accepted.1 rfl answer ?_⟩
  · simp only [SameLeases, State.restart, State.mapStations_slots, State.mapStations_waitList, and_self]
  · simp only [SameChannels, State.restart, State.mapStations_channels]
  · simp only [State.restart, State.mapStations, State.station, Fin.getElem_fin, Vector.getElem_ofFn, stations]
    rfl
  · simpa only [SameClock, State.restart, State.mapStations_clock, State.mapStations_frameTime] using clock
  · simpa only [SameSupply, State.restart, State.mapStations_supply, State.mapStations_causes] using supply
  · simpa only [State.restart, State.mapStations_resetCtl] using resetCtl
  · simpa only [State.restart, State.mapStations_lastReset] using lastReset
  · simpa only [SameOutside, State.restart, State.mapStations_vdd, State.mapStations_rstPin, State.mapStations_tickPin,
      State.mapStations_choices, State.mapStations_pending] using outside
  · simpa only [State.restart, State.mapStations_ports] using ports

end Sys2Proof.Machine
end

section
/-! PROOFS. Whom grant evaluation grants: the account of its pass entry by entry, and what a second pass finds. -/

namespace Sys2Proof.Machine

open Sys2Proof

/-! ## What a part of the pass keeps -/

/-- An entry that is not on the wait list is not put there. -/
theorem notMem_evaluationPass_waitList {s : State} {e : Handle} (entries : List Handle) (passed : List ChannelNo)
    (absent : e ∉ s.waitList) : e ∉ (evaluationPass entries passed s).waitList :=
  evaluationPass_keeps (P := fun t => e ∉ t.waitList)
    (fun t h _ _ _ _ absent mem => absent (List.mem_of_mem_erase (t.grantWaiting_waitList h ▸ mem)))
    entries passed s absent

/-- An entry that the pass does not come to stays on the wait list. -/
theorem mem_evaluationPass_waitList_of_notMem {s : State} {e : Handle} {entries : List Handle} (passed : List ChannelNo)
    (waits : e ∈ s.waitList) (absent : e ∉ entries) : e ∈ (evaluationPass entries passed s).waitList := by
  have all := evaluationPass_induction (P := fun entries t => e ∉ entries ∧ e ∈ t.waitList)
    (fun h rest t ⟨absent, waits⟩ => ⟨fun mem => absent (List.mem_cons_of_mem h mem), waits⟩)
    (fun h rest passed t l ⟨absent, waits⟩ _ _ => by
      obtain ⟨ne, absent⟩ := List.ne_and_not_mem_of_not_mem_cons absent
      exact ⟨absent, by rw [State.grantWaiting_waitList]; exact (List.mem_erase_of_ne ne).2 waits⟩)
    entries passed s ⟨absent, waits⟩
  exact all.2

/-- An entry that waits still names the lease it named. -/
theorem State.PassedTo.lookup_of_waiting {s t : State} (p : s.PassedTo t) {h : Handle} (waits : h ∈ t.waitList) :
    t.lookup h = s.lookup h := by
  rw [State.lookup, State.lookup, p.gen]
  split
  · next gen =>
    have named : s.handleAt h.slot = h := by rw [State.handleAt, gen]
    cases hl : s.leaseAt h.slot with
    | none => exact p.free _ hl
    | some l => exact p.kept _ l hl fun gone => gone.2 (named.symm ▸ waits)
  · rfl

/-- A grant makes no lease grantable: no cause leaves, and no channel becomes IDLE (R10). -/
theorem State.grantable_of_grantWaiting {s : State} {h : Handle} {m l : Lease} {passed : List ChannelNo}
    (hm : s.lookup h = some m) (later : (s.grantWaiting h).grantable passed l = true) : s.grantable passed l = true := by
  obtain ⟨at_slot, -⟩ := State.leaseAt_of_lookup hm
  obtain ⟨noCause, idle, clear⟩ := State.grantable_iff.1 later
  obtain ⟨-, -, ⟨-, causes⟩, -⟩ := s.grantWaiting_frame h
  refine State.grantable_iff.2 ⟨causes ▸ noCause, fun n hn => ?_, clear⟩
  have still := idle n hn
  rw [State.grantWaiting_channel at_slot] at still
  split at still
  · cases still
  · exact still

/-- What is grantable after a pass was grantable before it. -/
theorem grantable_of_evaluationPass {s : State} {l : Lease} {against : List ChannelNo} (entries : List Handle)
    (passed : List ChannelNo) (later : (evaluationPass entries passed s).grantable against l = true) :
    s.grantable against l = true :=
  evaluationPass_keeps (P := fun t => t.grantable against l = true → s.grantable against l = true)
    (fun _ _ _ _ names _ back later => back (State.grantable_of_grantWaiting names later)) entries passed s id later

/-! ## The pass entry by entry -/

/-- Channel `n` is listed by one of the entries that goes on waiting after grant evaluation. -/
def State.ListedByWaiting (s : State) (entries : List Handle) (n : ChannelNo) : Prop :=
  ∃ e ∈ entries, e ∈ s.grantEvaluation.waitList ∧ ∃ m, s.lookup e = some m ∧ n ∈ m.channels

theorem State.listedByWaiting_append_singleton {s : State} {ahead : List Handle} {h : Handle} {l : Lease}
    (hl : s.lookup h = some l) (n : ChannelNo) :
    s.ListedByWaiting (ahead ++ [h]) n ↔
      s.ListedByWaiting ahead n ∨ h ∈ s.grantEvaluation.waitList ∧ n ∈ l.channels := by
  simp [State.ListedByWaiting, or_and_right, exists_or, hl]

/-- The pass of grant evaluation of `s` is through with the entries `ahead` and stands at `t`, before the entries `rest`: the channels
passed over are those of the entries ahead that go on waiting (R39). -/
structure State.PassAt (s : State) (ahead rest : List Handle) (passed : List ChannelNo) (t : State) : Prop where
  passedTo : s.PassedTo t
  split : s.waitList = ahead ++ rest
  remain : rest.Sublist t.waitList
  passed_iff : ∀ n, n ∈ passed ↔ s.ListedByWaiting ahead n
  finish : evaluationPass rest passed t = s.grantEvaluation

section PassAt
variable {s t : State} {ahead rest : List Handle} {passed : List ChannelNo} {h : Handle} {l : Lease}

/-- A lease that the whole pass leaves grantable is grantable where the pass stands. -/
theorem State.PassAt.grantable (a : s.PassAt ahead rest passed t) {against : List ChannelNo}
    (later : s.grantEvaluation.grantable against l = true) : t.grantable against l = true :=
  grantable_of_evaluationPass rest passed (a.finish.symm ▸ later)

theorem State.PassAt.lookup (a : s.PassAt ahead (h :: rest) passed t) : t.lookup h = s.lookup h :=
  a.passedTo.lookup_of_waiting (a.remain.subset List.mem_cons_self)

/-- A grantable lease is granted when the pass comes to its entry. -/
theorem State.PassAt.grant (a : s.PassAt ahead (h :: rest) passed t) (distinct : s.waitList.Nodup)
    (hl : s.lookup h = some l) (grantable : t.grantable passed l = true) :
    h ∉ s.grantEvaluation.waitList ∧ s.PassAt (ahead ++ [h]) rest passed (t.grantWaiting h) := by
  have names := a.lookup.trans hl
  have waits : h ∈ t.waitList := a.remain.subset List.mem_cons_self
  have finish : evaluationPass rest passed (t.grantWaiting h) = s.grantEvaluation := by
    rw [← a.finish, evaluationPass, names]
    exact (if_pos grantable).symm
  have gone : h ∉ s.grantEvaluation.waitList := by
    rw [← finish]
    refine notMem_evaluationPass_waitList rest passed ?_
    rw [State.grantWaiting_waitList]
    exact (a.passedTo.waitList.nodup distinct).not_mem_erase
  refine ⟨gone, a.passedTo.grantWaiting distinct waits names grantable, by simp [a.split],
    by simpa using a.remain.erase h, fun n => ?_, finish⟩
  rw [a.passed_iff, State.listedByWaiting_append_singleton hl, or_iff_left fun waiting => gone waiting.1]

/-- A lease that is not grantable goes on waiting, and its channels are passed over. -/
theorem State.PassAt.passOver (a : s.PassAt ahead (h :: rest) passed t) (distinct : s.waitList.Nodup)
    (hl : s.lookup h = some l) (blocked : ¬ t.grantable passed l = true) :
    h ∈ s.grantEvaluation.waitList ∧ s.PassAt (ahead ++ [h]) rest (passed ++ l.channels) t := by
  have finish : evaluationPass rest (passed ++ l.channels) t = s.grantEvaluation := by
    rw [← a.finish, evaluationPass, a.lookup.trans hl]
    exact (if_neg blocked).symm
  obtain ⟨absent, -⟩ := List.nodup_cons.1 (a.remain.nodup (a.passedTo.waitList.nodup distinct))
  have stays : h ∈ s.grantEvaluation.waitList :=
    finish ▸ mem_evaluationPass_waitList_of_notMem _ (a.remain.subset List.mem_cons_self) absent
  refine ⟨stays, a.passedTo, by simp [a.split], (List.sublist_cons_self h rest).trans a.remain, fun n => ?_, finish⟩
  rw [List.mem_append, a.passed_iff, State.listedByWaiting_append_singleton hl, and_iff_right stays]

end PassAt

theorem State.WaitListLawful.distinct {s : State} (lawful : s.WaitListLawful) : s.waitList.Nodup := by
  obtain ⟨-, distinct, -⟩ := lawful
  exact distinct

/-- Every entry of a lawful wait list names a lease. -/
theorem State.WaitListLawful.lookup {s : State} (lawful : s.WaitListLawful) {h : Handle} (mem : h ∈ s.waitList) :
    ∃ l, s.lookup h = some l := by
  obtain ⟨-, -, pending, -⟩ := lawful
  cases hl : s.lookup h with
  | none => simpa [State.namesPending, hl] using pending h mem
  | some l => exact ⟨l, rfl⟩

/-- The pass comes to every place of the wait list. -/
theorem State.WaitListLawful.passAt {s : State} (lawful : s.WaitListLawful) (ahead : List Handle) {rest : List Handle}
    (split : s.waitList = ahead ++ rest) : ∃ passed t, s.PassAt ahead rest passed t := by
  have distinct := lawful.distinct
  induction ahead using List.reverseRecOn generalizing rest with
  | nil =>
    rw [List.nil_append] at split
    exact ⟨[], s, State.PassedTo.refl s, split, split ▸ List.Sublist.refl _, by simp [State.ListedByWaiting],
      by rw [State.grantEvaluation, split]⟩
  | append_singleton ahead h ih =>
    rw [List.append_assoc, List.singleton_append] at split
    obtain ⟨passed, t, a⟩ := ih split
    obtain ⟨l, hl⟩ := lawful.lookup (h := h) (by simp [split])
    by_cases grantable : t.grantable passed l = true
    · exact ⟨_, _, (a.grant distinct hl grantable).2⟩
    · exact ⟨_, _, (a.passOver distinct hl grantable).2⟩

/-! ## Who is granted, and who goes on waiting -/

/-- A lease that is granted shares no channel with an entry ahead of it that goes on waiting (R39). -/
theorem State.WaitListLawful.not_listed_of_granted {s : State} (lawful : s.WaitListLawful) {ahead behind : List Handle}
    {h : Handle} {l : Lease} (split : s.waitList = ahead ++ h :: behind) (hl : s.lookup h = some l)
    (gone : h ∉ s.grantEvaluation.waitList) : ∀ n ∈ l.channels, ¬ s.ListedByWaiting ahead n := by
  obtain ⟨passed, t, a⟩ := lawful.passAt ahead split
  by_cases grantable : t.grantable passed l = true
  · obtain ⟨-, -, clear⟩ := State.grantable_iff.1 grantable
    exact fun n hn listed => clear n hn ((a.passed_iff n).2 listed)
  · exact absurd (a.passOver lawful.distinct hl grantable).1 gone

/-- A lease that goes on waiting is blocked in the state the pass leaves: a channel that was taken when the pass came to its entry is
taken at the end (R39). -/
theorem State.WaitListLawful.blocked_of_waiting {s : State} (lawful : s.WaitListLawful) {ahead behind : List Handle}
    {h : Handle} {l : Lease} (split : s.waitList = ahead ++ h :: behind) (hl : s.lookup h = some l)
    (waits : h ∈ s.grantEvaluation.waitList) :
    s.holdDown = true ∨ (∃ n ∈ l.channels, (s.grantEvaluation.channel n).use ≠ .idle) ∨
      ∃ n ∈ l.channels, s.ListedByWaiting ahead n := by
  obtain ⟨passed, t, a⟩ := lawful.passAt ahead split
  have blocked : ¬ s.grantEvaluation.grantable passed l = true := fun grantable =>
    (a.grant lawful.distinct hl (a.grantable grantable)).1 waits
  obtain ⟨-, -, ⟨-, causes⟩, -⟩ := s.grantEvaluation_frame
  by_contra free
  simp only [not_or, not_exists, not_and, not_not] at free
  obtain ⟨noCause, noneTaken, noneListed⟩ := free
  refine blocked (State.grantable_iff.2 ⟨?_, noneTaken, fun n hn mem => noneListed n hn ((a.passed_iff n).1 mem)⟩)
  simpa [State.holdDown, causes] using noCause

/-- A list without repetitions filtered to a part of it is that part. -/
theorem filter_mem_of_sublist {part all : List Handle} (sub : part.Sublist all) (distinct : all.Nodup) :
    all.filter (· ∈ part) = part := by
  have within := sub.filter (· ∈ part)
  rw [List.filter_eq_self.2 fun e he => decide_eq_true he] at within
  have subset : all.filter (· ∈ part) ⊆ part := fun e he => of_decide_eq_true (List.mem_filter.1 he).2
  exact (within.eq_of_length_le (List.subperm_of_subset (distinct.filter _) subset).length_le).symm

/-- From where the pass stands, a second pass over the entries that go on waiting grants none of them (R42). -/
theorem State.PassAt.second_pass {s : State} (lawful : s.WaitListLawful) {rest : List Handle} :
    ∀ {ahead passed t}, s.PassAt ahead rest passed t →
      evaluationPass (rest.filter (· ∈ s.grantEvaluation.waitList)) passed s.grantEvaluation = s.grantEvaluation := by
  have distinct := lawful.distinct
  induction rest with
  | nil => intros; rfl
  | cons h rest ih =>
    intro ahead passed t a
    obtain ⟨l, hl⟩ := lawful.lookup (h := h) (by simp [a.split])
    by_cases grantable : t.grantable passed l = true
    · obtain ⟨gone, next⟩ := a.grant distinct hl grantable
      rw [List.filter_cons_of_neg (by simpa using gone)]
      exact ih next
    · obtain ⟨stays, next⟩ := a.passOver distinct hl grantable
      have blocked : ¬ s.grantEvaluation.grantable passed l = true := fun later =>
        grantable (a.grantable later)
      have names := ((s.grantEvaluation_passedTo distinct).lookup_of_waiting stays).trans hl
      rw [List.filter_cons_of_pos (by simpa using stays), evaluationPass, names]
      exact (if_neg blocked).trans (ih next)

/-- A second grant evaluation grants nothing further (R42). -/
theorem State.WaitListLawful.grantEvaluation_idem {s : State} (lawful : s.WaitListLawful) :
    s.grantEvaluation.grantEvaluation = s.grantEvaluation := by
  have distinct := lawful.distinct
  obtain ⟨passed, t, a⟩ := lawful.passAt [] (List.nil_append _).symm
  have none_passed : passed = [] :=
    List.eq_nil_iff_forall_not_mem.2 fun n mem => by simpa [State.ListedByWaiting] using (a.passed_iff n).1 mem
  have second := a.second_pass lawful
  rwa [none_passed, filter_mem_of_sublist (s.grantEvaluation_passedTo distinct).waitList distinct] at second

/-- Settles O39: the pass stands before each entry with the channels of the waiting entries ahead of it, and nothing it does later
frees a channel. -/
theorem evaluationIsFair : Obligations.EvaluationIsFair := by
  unfold Obligations.EvaluationIsFair
  intro s sound
  obtain ⟨-, -, lawful, -⟩ := sound
  refine ⟨fun held => ?_, fun ahead behind h l split hl gone e he m hm waits n hn shared => ?_,
    fun ahead behind h l split hl waits => ?_, lawful.grantEvaluation_idem⟩
  · have present : s.causes.isEmpty = false := by simpa [State.holdDown] using held
    exact evaluationPass_held present s.waitList []
  · exact lawful.not_listed_of_granted split hl gone n shared ⟨e, he, waits, m, hm, hn⟩
  · refine (lawful.blocked_of_waiting split hl waits).imp_right (Or.imp_right ?_)
    rintro ⟨n, hn, e, he, waiting, m, hm, listed⟩
    exact ⟨e, he, waiting, m, hm, n, listed, hn⟩

end Sys2Proof.Machine
end

section
/-! PROOFS. Renewal, release and revocation of an accepted request, and the lease tick. -/

namespace Sys2Proof.Machine

open Sys2Proof

/-! ## The checks of a request that passes them -/

/-- The check that the station is attached, which stands first, passes (R105). -/
theorem firstRefusal_detached_of_none {s : State} {st : Station} {more : List (Bool × Byte)}
    (h : firstRefusal ((!(s.station st).attached, 0x13#8) :: more) = none) :
    s.detached st = false ∧ firstRefusal more = none := by
  rw [firstRefusal_cons] at h
  split at h
  · cases h
  · next attached => exact ⟨by simpa [State.detached] using attached, h⟩

/-- The checks of a handle pass where it names a lease (R7). -/
theorem firstRefusal_handle_of_none {s : State} {handle : Byte} {more : List (Bool × Byte)}
    (h : firstRefusal ((decide (0xC0 ≤ handle.toNat), 0x11#8) :: (decide (s.named handle = none), 0x20#8) :: more) =
      none) :
    (∃ l, s.named handle = some l) ∧ firstRefusal more = none := by
  rw [firstRefusal_cons, firstRefusal_cons] at h
  split at h
  · cases h
  · split at h
    · cases h
    · next names => exact ⟨Option.ne_none_iff_exists'.1 (of_decide_eq_false (Bool.eq_false_iff.2 names)), h⟩

/-- The supervisor's two checks pass, and the checks after them (R160). -/
theorem firstRefusal_supervisor_of_none {s : State} {st : Station} {more : List (Bool × Byte)}
    (h : firstRefusal ((!(s.station st).attached, 0x13#8) :: (decide (st ≠ 0), 0x14#8) :: more) = none) :
    firstFailing (s.supervisorChecks st) = none ∧ firstRefusal more = none := by
  refine ⟨firstFailing_supervisor_of_none h, ?_⟩
  rw [State.supervisorChecks_tabled, firstRefusal_append, Option.or_eq_none_iff] at h
  exact h.2

/-- A handle byte that names a lease spells the handle of the lease in its slot (R5, R7). -/
theorem State.handle_of_named {s : State} {handle : Byte} {i : SlotNo} {l : Lease} (names : s.named handle = some l)
    (slot : handle.toNat / 8 = i.val) :
    ∃ e, Handle.ofByte? handle = some e ∧ e.slot = i ∧ s.lookup e = some l := by
  rw [State.named_eq, Option.bind_eq_some_iff] at names
  obtain ⟨e, he, hl⟩ := names
  refine ⟨e, he, ?_, hl⟩
  unfold Handle.ofByte? at he
  split at he
  · cases he; exact Fin.ext slot
  · cases he

theorem SameBesideTables.ports_eq {s t : State} (h : SameBesideTables s t) : t.ports = s.ports := by
  obtain ⟨-, -, -, -, ⟨ports, -⟩, -⟩ := h
  exact ports

/-- A change of the slots alone. -/
theorem State.mapSlots_frame (s : State) (f : SlotNo → Slot → Slot) :
    (s.mapSlots f).waitList = s.waitList ∧ SameChannels s (s.mapSlots f) ∧ SameBesideTables s (s.mapSlots f) := by
  simp [SameChannels, SameBesideTables, SameStations, SameClock, SameSupply, SameResets, SamePorts, SameOutside]

/-! ## RENEW -/

/-- The renewal of a lease in the terms of the claims (R55). -/
theorem Lease.renew_eq (tick : Word) (newTerm : Nat) (l : Lease) :
    l.renew tick newTerm =
      { l with
        term := if newTerm = 0 then l.term else newTerm
        remaining := if newTerm = 0 then l.term else newTerm
        warned := false
        renewCount := if l.renewCount < 255 then l.renewCount + 1 else 255
        renewTick := tick } := by
  have count : min 255 (l.renewCount + 1) = if l.renewCount < 255 then l.renewCount + 1 else 255 := by
    split <;> omega
  rw [Lease.renew, count]

theorem State.renewSlot_beginTake (s : State) (st : Station) (i : SlotNo) (newTerm : Nat) :
    (s.beginTake st).renewSlot i newTerm = (s.renewSlot i newTerm).beginTake st := rfl

/-- An accepted RENEW passes the checks of the lease that its handle names (R54). -/
theorem State.Accepts.renew {s : State} {st k : Station} {handle : Byte} {newTerm : Word} {e : Handle} {l : Lease}
    (h : s.Accepts (.renew st handle newTerm) k) (he : Handle.ofByte? handle = some e) (hl : s.lookup e = some l) :
    s.detached st = false ∧ firstFailing (renewChecks st newTerm l) = none := by
  obtain ⟨attached, rest⟩ := firstRefusal_detached_of_none h.2
  obtain ⟨-, rest⟩ := firstRefusal_handle_of_none rest
  refine ⟨attached, ?_⟩
  have same : (renewChecks st newTerm l).map tabled =
      [(s.namedHas handle fun l => decide (l.holder ≠ st), 0x21#8), (s.namedHas handle Lease.isPending, 0x23#8),
        (s.namedHas handle Lease.isLapsed, 0x22#8),
        (s.namedHas handle fun l => decide (newTerm.toNat ≠ 0 ∧ newTerm.toNat ≤ l.warnMargin), 0x11#8)] := by
    simp [State.namedHas_of_lookup he hl, renewChecks, tabled, Status.toByte, bne, beq_eq_decide]
  rwa [← same, firstRefusal_tabled, Option.map_eq_none_iff] at rest

/-- An accepted RENEW renews the lease when it is taken. -/
theorem renewEffect_accepted {s : State} {st : Station} {handle : Byte} {newTerm : Word} {e : Handle} {l : Lease}
    (attached : s.detached st = false) (he : Handle.ofByte? handle = some e) (hl : s.lookup e = some l)
    (passes : firstFailing (renewChecks st newTerm l) = none) :
    renewEffect st handle newTerm s =
      accept (s.renewSlot e.slot newTerm.toNat) (twoBytes (l.renew s.clock.tickCounter newTerm.toNat).term) := by
  simp only [renewEffect, attached, he, hl, passes, Bool.false_eq_true, if_false]

/-- Settles O40: the lease that the handle names is renewed in its slot. -/
theorem renewCompletes : Obligations.RenewCompletes := by
  unfold Obligations.RenewCompletes
  intro s st handle newTerm i l accepted slot names
  obtain ⟨e, he, rfl, hl⟩ := State.handle_of_named names slot
  obtain ⟨attached, passes⟩ := accepted.renew he hl
  obtain ⟨at_slot, -⟩ := State.leaseAt_of_lookup hl
  refine .of_beginTake accepted.1 rfl ?_ rfl
  rw [renewEffect_accepted (s := s.beginTake st) attached he hl passes, State.renewSlot_beginTake, State.renewSlot, at_slot,
    Option.map_some, Lease.renew_eq, Lease.renew_eq]
  rfl

/-! ## RENEW_ALL -/

/-- RENEW_ALL renews the HELD leases of the station and no others (R56). -/
theorem State.leaseAt_renewAll (s : State) (st : Station) (i : SlotNo) :
    (s.renewAll st).leaseAt i = (s.leaseAt i).map fun l =>
      if l.holder = st ∧ l.state = .held then l.renew s.clock.tickCounter 0 else l := by
  rw [State.leaseAt, State.renewAll, State.slot_mapSlots]
  cases hl : s.leaseAt i with
  | none =>
    have slot : (s.slot i).lease = none := hl
    split <;> simp [slot]
  | some l =>
    have slot : (s.slot i).lease = some l := hl
    simp only [State.slotHas, hl, heldBy, Bool.and_eq_true, beq_iff_eq, Lease.isHeld_iff, Option.map_some]
    split <;> simp [slot]

theorem State.renewAll_beginTake (s : State) (st k : Station) :
    (s.beginTake st).renewAll k = (s.renewAll k).beginTake st :=
  s.mapSlots_beginTake st _

theorem State.renewAll_frame (s : State) (st : Station) :
    (s.renewAll st).waitList = s.waitList ∧ SameChannels s (s.renewAll st) ∧ SameBesideTables s (s.renewAll st) :=
  s.mapSlots_frame _

/-- The count of leases with a property, as the statements write it. -/
theorem State.countLeases_eq (s : State) (p : Lease → Bool) :
    s.countLeases p = (List.finRange 24).countP fun i => (s.leaseAt i).any p := by
  refine List.countP_congr fun i _ => ?_
  cases hl : s.leaseAt i <;> simp [State.slotHas, hl]

/-- Settles O41: the renewal is one change of the lease table. -/
theorem renewAllCompletes : Obligations.RenewAllCompletes := by
  unfold Obligations.RenewAllCompletes
  intro s st accepted
  obtain ⟨attached, -⟩ := firstRefusal_detached_of_none accepted.2
  obtain ⟨waitList, channels, stations, clock, supply, resets, ⟨ports, -⟩, outside⟩ := s.renewAll_frame st
  have answer : renewAllEffect st (s.beginTake st) =
      ((s.renewAll st).beginTake st,
        [0x00#8, BitVec.ofNat 8 ((List.finRange 24).countP fun i => (s.leaseAt i).any (heldBy st))]) := by
    have attached : (s.beginTake st).detached st = false := attached
    rw [renewAllEffect, attached, State.renewAll_beginTake, State.beginTake_countLeases, State.countLeases_eq]
    rfl
  refine ⟨s.renewAll st, fun i => ⟨?_, ?_⟩, waitList, channels, stations, clock, supply, resets, outside,
    .of_beginTake accepted.1 rfl answer ports⟩
  · rw [State.renewAll, State.slot_mapSlots]
    split <;> rfl
  · simp only [State.leaseAt_renewAll, Lease.renew_eq, if_true]

/-! ## RELEASE and REVOKE -/

theorem onlySlot_eq (h : Handle) : onlySlot h = fun k => decide (k = h.slot) := by
  funext k
  rw [onlySlot, beq_eq_decide]

/-- The lease of a slot, alone, is HELD or PENDING unless it is LAPSED (R15). -/
theorem State.anyActive_onlySlot {s : State} {h : Handle} {l : Lease} (hl : s.leaseAt h.slot = some l) :
    s.anyActive (onlySlot h) = !l.isLapsed := by
  rw [Bool.eq_iff_iff]
  simp [State.anyActive, onlySlot, State.slotHas_iff, hl]

/-- The release of a lease triggers grant evaluation unless the lease was LAPSED (R58 to R60). -/
theorem State.release_eq {s : State} {h : Handle} {l : Lease} (hl : s.leaseAt h.slot = some l) :
    s.release h =
      if l.isLapsed = true then s.free (onlySlot h) else (s.free (onlySlot h)).grantEvaluation := by
  rw [State.release, State.anyActive_onlySlot hl, State.evaluateIf]
  cases l.isLapsed <;> rfl

theorem State.release_beginTake (s : State) (st : Station) (h : Handle) :
    (s.beginTake st).release h = (s.release h).beginTake st := by
  rw [State.release, State.free_beginTake, State.evaluateIf_beginTake, State.beginTake_anyActive, State.release]

/-- Settles O42: the lease that the handle names is freed, with the evaluation that its state triggers. -/
theorem releaseCompletes : Obligations.ReleaseCompletes := by
  unfold Obligations.ReleaseCompletes
  intro s st handle i l accepted slot names
  obtain ⟨attached, rest⟩ := firstRefusal_detached_of_none accepted.2
  obtain ⟨-, rest⟩ := firstRefusal_handle_of_none rest
  obtain ⟨e, he, rfl, hl⟩ := State.handle_of_named names slot
  obtain ⟨at_slot, -⟩ := State.leaseAt_of_lookup hl
  have holder : l.holder = st := by
    simpa [firstRefusal_eq_none, State.namedHas_of_lookup he hl] using rest
  obtain ⟨⟨-, -, -, frame⟩, -⟩ := s.free_spec (onlySlot e)
  refine ⟨s.free (onlySlot e), onlySlot_eq e ▸ s.free_spec (onlySlot e), ?_⟩
  rw [← State.release_eq at_slot]
  refine .of_beginTake accepted.1 rfl ?_ (frame.trans (State.evaluateIf_frame _ _)).ports_eq
  have attached : (s.beginTake st).detached st = false := attached
  simp only [releaseEffect, attached, he, State.beginTake_lookup, hl, holder, State.release_beginTake,
    Bool.false_eq_true, if_false, if_true]
  rfl

/-- Settles O43: the lease that the handle names lapses, HELD or PENDING. -/
theorem revokeCompletes : Obligations.RevokeCompletes := by
  unfold Obligations.RevokeCompletes
  intro s st handle i accepted slot
  obtain ⟨supervisor, rest⟩ := firstRefusal_supervisor_of_none accepted.2
  obtain ⟨⟨l, names⟩, rest⟩ := firstRefusal_handle_of_none rest
  obtain ⟨e, he, rfl, hl⟩ := State.handle_of_named names slot
  have inForce : l.isLapsed = false := by
    simpa [firstRefusal_eq_none, State.namedHas_of_lookup he hl] using rest
  obtain ⟨⟨-, -, -, frame⟩, -⟩ := s.lapse_spec (onlySlot e) .revoked
  refine ⟨s.lapse (onlySlot e) .revoked, onlySlot_eq e ▸ s.lapse_spec (onlySlot e) .revoked,
    .of_beginTake accepted.1 rfl ?_ (frame.trans (State.grantEvaluation_frame _)).ports_eq⟩
  have supervisor : firstFailing ((s.beginTake st).supervisorChecks st) = none := supervisor
  simp only [revokeEffect, supervisor, he, State.beginTake_lookup, hl, inForce, State.lapse_beginTake,
    State.grantEvaluation_beginTake, Bool.false_eq_true, if_false]
  rfl

/-! ## The lease tick -/

/-- The countdown of a lease in the terms of the claims (R48). -/
theorem Lease.countDown_eq (l : Lease) : l.countDown = l.afterTick := by
  unfold Lease.countDown Lease.afterTick
  by_cases held : l.state = .held
  · rw [if_pos (Lease.isHeld_iff.2 held), if_pos held]
    dsimp only
    split
    · next warns => simp [warns]
    · next quiet => simp [quiet]
  · rw [if_neg (mt Lease.isHeld_iff.1 held), if_neg held]

/-- The count of a pulse in the terms of the claims (R81). -/
theorem HeldUse.countPulse_eq (u : HeldUse) : u.countPulse = u.afterTick := by
  obtain ⟨lease, drive, pendingPwm, pulse⟩ := u
  rcases drive with v | duty | ⟨level, length⟩
  · cases pulse <;> rfl
  · cases pulse <;> rfl
  · cases level <;> rcases pulse with - | - | pulse <;> rfl

/-- A start of checking on a HELD channel in the terms of the claims (R92). -/
theorem Channel.startChecking_held {c : Channel} {u : HeldUse} (held : c.use = .held u) :
    c.startChecking =
      { c with
        phase := startPhase c.senseCheck u.drive.checked
        settleTimer := startTimer c.senseCheck u.drive.checked
        mismatchTimer := none } := by
  have level : c.checkedLevel = u.drive.checked := by rw [Channel.checkedLevel, held]
  have intact : c.isFaulted = false := by simp [Channel.isFaulted, held]
  cases check : c.senseCheck with
  | false => simp [Channel.startChecking, intact, check, Channel.rest, startPhase, startTimer]
  | true =>
    cases checked : u.drive.checked <;>
      simp [Channel.startChecking, intact, check, level, checked, Channel.rest, Channel.settle, startPhase, startTimer]

/-- A change of what a HELD channel drives, in the terms of the claims (R83, R92). -/
theorem Channel.redrive_held {c : Channel} {u : HeldUse} (held : c.use = .held u) (f : HeldUse → HeldUse) :
    c.redrive f = c.nowDriving (f u) := by
  simp only [Channel.redrive, held, Channel.recheck, Channel.nowDriving, and_true]
  exact if_congr Iff.rfl rfl (Channel.startChecking_held rfl)

theorem Channel.redrive_of_not_held {c : Channel} (free : c.isHeld = false) (f : HeldUse → HeldUse) :
    c.redrive f = c := by
  cases use : c.use with
  | held u => simp [Channel.isHeld, use] at free
  | idle => simp only [Channel.redrive, use]
  | faulted => simp only [Channel.redrive, use]

/-- The counts of a tick are those of every HELD lease and of every pulse, and the tick counter's (R48, R81, R122). -/
theorem State.countTick_countOf (s : State) : CountOf s s.countTick := by
  refine ⟨by simp [State.countTick, LeaseClock.advance], fun i => ?_, fun n u held => ?_, fun n free => ?_, ?_⟩
  · rw [State.leaseAt, State.countTick, State.slot_mapSlots, State.mapChannels_slot]
    exact ⟨rfl, congrArg (Option.map · _) (funext Lease.countDown_eq)⟩
  · rw [State.countTick, State.mapSlots_channel, State.channel_mapChannels, ← HeldUse.countPulse_eq]
    exact Channel.redrive_held held _
  · rw [State.countTick, State.mapSlots_channel, State.channel_mapChannels]
    exact Channel.redrive_of_not_held free _
  · simp [State.countTick, SameStations, SameSupply, SameResets, SamePorts, SameOutside]

/-- The leases that are due to expire, by the model and by the statements (R50). -/
theorem State.slotHas_due (s : State) : (s.slotHas fun l => l.isHeld && l.remaining == 0) = s.isDue := by
  funext i
  unfold State.slotHas State.isDue
  cases s.leaseAt i with
  | none => rfl
  | some l => simp [Lease.isHeld, beq_eq_decide]

/-- A lease that expires was HELD, so that each expiry triggers grant evaluation (R15, R50). -/
theorem State.anyActive_isDue (s : State) : s.anyActive s.isDue = true ↔ ∃ i, s.isDue i = true := by
  simp only [State.anyActive, List.any_eq_true, List.mem_finRange, true_and, Bool.and_eq_true]
  refine exists_congr fun i => and_iff_left_of_imp fun due => ?_
  rw [← State.slotHas_due, State.slotHas_iff] at due
  obtain ⟨l, hl, held⟩ := due
  rw [Bool.and_eq_true, Lease.isHeld_iff] at held
  exact (s.slotHas_iff _ i).2 ⟨l, hl, by rw [Lease.isLapsed, held.1]; rfl⟩

/-- The expiries in the terms of the claims (R50, R53). -/
theorem State.expireDue_expiryOf (s : State) : ExpiryOf s s.expireDue := by
  refine ⟨s.lapse s.isDue .expired, s.lapse_spec _ _, ?_⟩
  rw [State.expireDue, State.slotHas_due, State.evaluateIf]
  exact if_congr s.anyActive_isDue rfl rfl

/-- A lease tick is its counts and then its expiries (R48, R50, R121). -/
theorem State.leaseTick_tickOf (s : State) : TickOf s s.leaseTick :=
  ⟨s.countTick, s.countTick_countOf, s.countTick.expireDue_expiryOf⟩

/-- Settles O52: the tick is the model's own, made on the state whose prescale count begins again. -/
theorem leaseTickCompletes : Obligations.LeaseTickCompletes := by
  unfold Obligations.LeaseTickCompletes
  intro s running
  have taken : exec .leaseTick s = .next s.internalTick := by
    simp only [exec, execLeaseTick, running, Bool.false_eq_true, if_false]
  rw [taken]
  unfold State.internalTick
  refine ⟨fun internal => ?_, fun external => ?_⟩
  · rw [internal]
    exact ⟨_, rfl, State.leaseTick_tickOf _⟩
  · rw [external]

end Sys2Proof.Machine
end

section
/-! PROOFS. The output channels: what their pins show, what QUERY_CHANNEL reports of them, and what DRIVE and CONFIG_CHANNEL leave. -/

namespace Sys2Proof.Machine

open Sys2Proof

/-! ## The output pins -/

/-- Within step `step` of the frame's 256, the pin of a PWM drive is HIGH in the first steps, as many as its duty (R77). -/
theorem Drive.pin_pwm {time period step : Nat} (begun : step * period ≤ 256 * time)
    (within : 256 * time < (step + 1) * period) (duty : Nat) :
    (Drive.pwm duty).pin time period = if step < duty then .high else .low := by
  refine if_congr ⟨fun high => ?_, fun first => ?_⟩ rfl rfl
  · refine Nat.lt_of_mul_lt_mul_right (a := period) ?_
    omega
  · have := Nat.mul_le_mul_right period (Nat.succ_le_of_lt first)
    rw [Nat.succ_eq_add_one] at this
    omega

theorem State.outPin_of_not_held {s : State} (running : s.resetCtl.active = false) {n : ChannelNo}
    (free : (s.channel n).isHeld = false) : s.outPin n = (s.channel n).fallback.pin := by
  rw [State.outPin, running]
  cases use : (s.channel n).use with
  | idle => rfl
  | held u => simp [Channel.isHeld, use] at free
  | faulted => rfl

theorem State.outPin_of_held {s : State} (running : s.resetCtl.active = false) {n : ChannelNo} {u : HeldUse}
    (held : (s.channel n).use = .held u) : s.outPin n = u.drive.pin s.frameTime (framePeriod s.clock.frameIndex) := by
  rw [State.outPin, running, held]
  rfl

/-- Settles O48: the pin is that of the drive in HELD and of the fallback elsewhere. -/
theorem outputPinsShowDrive : Obligations.OutputPinsShowDrive := by
  unfold Obligations.OutputPinsShowDrive
  intro s n running
  refine ⟨State.outPin_of_not_held running, fun u held => ?_⟩
  rw [State.outPin_of_held running held]
  refine ⟨fun v steady => ?_, fun level length pulse => ?_, fun duty step pwm begun within => ?_⟩
  · rw [steady]; rfl
  · rw [pulse]; rfl
  · rw [pwm]; exact Drive.pin_pwm begun within duty

/-! ## QUERY_CHANNEL -/

/-- The configuration byte as its fields add up (R168). -/
theorem Channel.configByte_eq (c : Channel) :
    c.configByte = BitVec.ofNat 8 (c.fallback.code + (if c.senseCheck then 4 else 0) + 16 * c.minClass.val) := by
  have add : ∀ (code minClass : Fin 4) (senseCheck : Bool), byteOf (code.val + 16 * minClass.val) ||| bitAt senseCheck 2 =
      BitVec.ofNat 8 (code.val + (if senseCheck then 4 else 0) + 16 * minClass.val) := by decide
  rw [Channel.configByte]
  cases c.fallback with
  | low => exact add 0 _ _
  | high => exact add 1 _ _
  | off => exact add 2 _ _

/-- The fields of a channel in the layout of R168. -/
theorem State.channelFields_eq (s : State) (n : ChannelNo) :
    s.channelFields n =
      [byteOf n.val, (s.channel n).use.toByte, (s.channel n).configByte] ++
        (match (s.channel n).use with
          | .held u =>
            [BitVec.ofNat 8 (8 * u.lease.slot.val + u.lease.gen.val), BitVec.ofNat 8 u.drive.modeCode,
              BitVec.ofNat 8 u.drive.value, BitVec.ofNat 8 (u.pendingPwm.getD 0), BitVec.ofNat 8 u.pulse]
          | .idle => [0xFF#8, BitVec.ofNat 8 (s.channel n).fallback.code, 0x00#8, 0x00#8, 0x00#8]
          | .faulted => [0xFF#8, BitVec.ofNat 8 (s.channel n).fallback.code, 0x00#8, 0x00#8, 0x00#8]) ++
        [byteOf (s.waitingCount n), levelByte (s.channel n).senseLevel] := by
  rw [State.channelFields]
  cases use : (s.channel n).use with
  | idle => simp [Channel.holdingByte, Channel.holding, Channel.driveFields, use, noLease, byteOf]
  | held u => simp [Channel.holdingByte, Channel.holding, Channel.driveFields, use, Handle.toByte, byteOf, Nat.mul_comm]
  | faulted => simp [Channel.holdingByte, Channel.holding, Channel.driveFields, use, noLease, byteOf]

/-- Settles O26: the reply is the channel's own fields, and the effect leaves the state. -/
theorem queryChannelReports : Obligations.QueryChannelReports := by
  unfold Obligations.QueryChannelReports
  intro s st channel n ready number
  have effect : queryChannelEffect channel (s.beginTake st) = (s.beginTake st, 0x00#8 :: s.channelFields n) := by
    simp only [queryChannelEffect, channelOf?_eq_some.2 number]; rfl
  have named : byteOf n.val = channel := by rw [← number, byteOf, BitVec.ofNat_toNat, BitVec.setWidth_eq]
  rw [State.channelFields_eq, named, Channel.configByte_eq, State.waitingCount, State.countLeases_eq] at effect
  refine .of_effect ready rfl (effect.trans ?_) ⟨rfl, rfl⟩ (.beginTake s st)
  cases (s.channel n).use <;> cases (s.channel n).senseLevel <;> rfl

/-! ## CONFIG_CHANNEL -/

/-- A start of checking on a channel that is not FAULTED in the terms of the claims (R92). -/
theorem Channel.startChecking_intact {c : Channel} (intact : c.isFaulted = false) :
    c.startChecking =
      { c with
        phase := startPhase c.senseCheck c.checkedLevel
        settleTimer := startTimer c.senseCheck c.checkedLevel
        mismatchTimer := none } := by
  cases check : c.senseCheck with
  | false => simp [Channel.startChecking, intact, check, Channel.rest, startPhase, startTimer]
  | true =>
    cases level : c.checkedLevel <;>
      simp [Channel.startChecking, intact, check, level, Channel.rest, Channel.settle, startPhase, startTimer]

/-- The checker of a FAULTED channel is STOPPED and no timer of it runs (R91). -/
theorem Channel.CheckerLawful.stopped {c : Channel} (lawful : c.CheckerLawful) (faulted : c.use = .faulted) :
    c.phase = .stopped ∧ c.settleTimer = none ∧ c.mismatchTimer = none := by
  obtain ⟨stopped, -, -, settles, mismatches, -⟩ := lawful
  have phase : c.phase = .stopped := stopped.2 (by simp [Channel.isFaulted, faulted])
  exact ⟨phase, by simpa [phase] using settles, by simpa [phase] using mismatches⟩

/-- The new configuration of a channel that is not HELD in the terms of the claims (R87, R92). -/
theorem Channel.configure_eq {c : Channel} (lawful : c.CheckerLawful) (free : c.isHeld = false) (fallback : Steady)
    (senseCheck : Bool) (minClass : Fin 4) :
    c.configure fallback senseCheck minClass =
      if c.use = .faulted ∨ (c.fallback.checked = fallback.checked ∧ c.senseCheck = senseCheck) then
        { c with fallback := fallback, senseCheck := senseCheck, minClass := minClass }
      else
        { c with
          fallback := fallback
          senseCheck := senseCheck
          minClass := minClass
          phase := startPhase senseCheck fallback.checked
          settleTimer := startTimer senseCheck fallback.checked
          mismatchTimer := none } := by
  rw [Channel.configure, Channel.recheck]
  cases use : c.use with
  | held u => simp [Channel.isHeld, use] at free
  | faulted =>
    obtain ⟨phase, settle, mismatch⟩ := lawful.stopped use
    simp [Channel.startChecking, Channel.isFaulted, Channel.rest, phase, settle, mismatch]
  | idle =>
    have started := Channel.startChecking_intact (c := { c with use := .idle, fallback, senseCheck, minClass }) rfl
    simp only [Channel.checkedLevel, use, started, reduceCtorEq, false_or, eq_comm (a := fallback.checked),
      eq_comm (a := senseCheck)]

/-- A configuration byte of the fallback's code, with no position set that it does not define, says the fallback and the sense check
(R167, R169). -/
theorem configOf?_eq_some {b : Byte} {fallback : Steady} (defined : b.toNat < 8) (code : b.toNat % 4 = fallback.code) :
    configOf? b = some (fallback, b.getLsbD 2) := by
  rw [configOf?, if_neg (by omega), code]
  cases fallback <;> rfl

/-- What an accepted CONFIG_CHANNEL has passed (R86). -/
theorem firstRefusal_configChannel_of_none {s : State} {st : Station} {channel config minClass : Byte} {n : ChannelNo}
    (passes : firstRefusal (s.refusals (.configChannel st channel config minClass)) = none)
    (number : channel.toNat = n.val) :
    firstFailing (s.supervisorChecks st) = none ∧ config.toNat < 8 ∧ s.channelInUse n = false := by
  obtain ⟨supervisor, rest⟩ := firstRefusal_supervisor_of_none passes
  simp only [firstRefusal_eq_none, List.mem_cons, List.not_mem_nil, or_false, forall_eq_or_imp, forall_eq,
    decide_eq_false_iff_not, channelOf?_eq_some.2 number] at rest
  obtain ⟨range, unused⟩ := rest
  refine ⟨supervisor, by omega, ?_⟩
  simpa [State.channelInUse, State.someLease_iff] using unused

/-- An accepted CONFIG_CHANNEL configures its channel when it is taken. -/
theorem configChannelEffect_accepted {s : State} {st : Station} {channel config minClass : Byte} {n : ChannelNo}
    {fallback : Steady} {c : Fin 4} (passes : firstRefusal (s.refusals (.configChannel st channel config minClass)) = none)
    (number : channel.toNat = n.val) (code : config.toNat % 4 = fallback.code) (cls : minClass.toNat = c.val) :
    configChannelEffect st channel config minClass s =
      accept (s.setChannel n ((s.channel n).configure fallback (config.getLsbD 2) c)) [] := by
  obtain ⟨supervisor, defined, unused⟩ := firstRefusal_configChannel_of_none passes number
  simp only [configChannelEffect, supervisor, channelOf?_eq_some.2 number, configOf?_eq_some defined code,
    indexOf4?_eq_some.2 cls, unused, Bool.false_eq_true, if_false]

/-- Settles O46: the channel named is not HELD, and its new configuration is handed to its checker. -/
theorem configChannelCompletes : Obligations.ConfigChannelCompletes := by
  unfold Obligations.ConfigChannelCompletes
  intro s st channel config minClass n fallback c accepted lawful number code cls
  obtain ⟨-, -, unused⟩ := firstRefusal_configChannel_of_none accepted.2 number
  have free : (s.channel n).isHeld = false := (Bool.or_eq_false_iff.1 unused).1
  rw [← Channel.configure_eq lawful free]
  refine .of_beginTake accepted.1 rfl ?_ rfl
  rw [configChannelEffect_accepted (by rw [State.refusals_beginTake]; exact accepted.2) number code cls]
  rfl

/-! ## DRIVE -/

/-- The drives that the legal entries name (R84 step 5). -/
theorem Drive.ofEntry?_cases {mode value : Byte} {d : Drive} (legal : Drive.ofEntry? mode value = some d) :
    (mode = 0#8 ∧ d = .steady .low) ∨ (mode = 1#8 ∧ d = .steady .high) ∨ (mode = 2#8 ∧ d = .steady .off) ∨
      (1 ≤ value.toNat ∧ ((mode = 3#8 ∧ d = .pwm value.toNat) ∨ (mode = 4#8 ∧ d = .pulse .high value.toNat) ∨
        (mode = 5#8 ∧ d = .pulse .low value.toNat))) := by
  unfold Drive.ofEntry? at legal
  dsimp only at legal
  repeat' split at legal
  all_goals cases legal
  all_goals simp_all [Nat.one_le_iff_ne_zero]

/-- An entry of mode PWM waits for the frame start, after a pulse with the pulse cut short at its level (R78). -/
theorem HeldUse.drives_pwm (u : HeldUse) (duty : Nat) : u.drives (.pwm duty) = u.afterEntry 3 duty := by
  obtain ⟨lease, drive, pendingPwm, pulse⟩ := u
  rcases drive with v | present | ⟨level, length⟩
  · rfl
  · rfl
  · cases level <;> rfl

/-- A legal entry makes of the drive in force what the claims say of its mode and value (R75, R78, R80). -/
theorem HeldUse.drives_eq_afterEntry {mode value : Byte} {d : Drive} (legal : Drive.ofEntry? mode value = some d)
    (u : HeldUse) : u.drives d = u.afterEntry mode.toNat value.toNat := by
  rcases Drive.ofEntry?_cases legal with
    ⟨rfl, rfl⟩ | ⟨rfl, rfl⟩ | ⟨rfl, rfl⟩ | ⟨-, ⟨rfl, rfl⟩ | ⟨rfl, rfl⟩ | ⟨rfl, rfl⟩⟩
  · rfl
  · rfl
  · rfl
  · exact u.drives_pwm _
  · rfl
  · rfl

theorem State.applyDrives_beginTake (s : State) (st : Station) (settings : List (ChannelNo × Drive)) :
    (s.beginTake st).applyDrives settings = (s.applyDrives settings).beginTake st := by
  induction settings generalizing s with
  | nil => rfl
  | cons e rest ih => exact ih (s.applyDrive e.1 e.2)

/-- The entries of a DRIVE touch the channel table alone. -/
theorem State.applyDrives_frame (s : State) (settings : List (ChannelNo × Drive)) :
    SameLeases s (s.applyDrives settings) ∧ SameBesideTables s (s.applyDrives settings) := by
  induction settings generalizing s with
  | nil => exact ⟨⟨rfl, rfl⟩, .refl s⟩
  | cons e rest ih => exact ih (s.applyDrive e.1 e.2)

theorem State.channel_applyDrive (s : State) (n : ChannelNo) (d : Drive) (k : ChannelNo) :
    (s.applyDrive n d).channel k = if n = k then (s.channel n).redrive fun u => u.drives d else s.channel k :=
  s.channel_setChannel n _ k

/-- The entries of a DRIVE leave the channels they do not name. -/
theorem State.applyDrives_channel_of_notMem {s : State} {settings : List (ChannelNo × Drive)} {n : ChannelNo}
    (absent : n ∉ settings.map Prod.fst) : (s.applyDrives settings).channel n = s.channel n := by
  induction settings generalizing s with
  | nil => rfl
  | cons e rest ih =>
    obtain ⟨other, absent⟩ := not_or.1 (mt List.mem_cons.2 absent)
    exact (ih absent).trans ((s.channel_applyDrive _ _ n).trans (if_neg (Ne.symm other)))

/-- Each entry of a DRIVE is applied to its channel as it stood, where no two name the same (R85). -/
theorem State.applyDrives_channel_of_mem {s : State} {settings : List (ChannelNo × Drive)} {n : ChannelNo} {d : Drive}
    (distinct : (settings.map Prod.fst).Nodup) (mem : (n, d) ∈ settings) :
    (s.applyDrives settings).channel n = (s.channel n).redrive fun u => u.drives d := by
  induction settings generalizing s with
  | nil => cases mem
  | cons e rest ih =>
    obtain ⟨once, distinct⟩ := List.nodup_cons.1 distinct
    rcases List.mem_cons.1 mem with rfl | mem
    · exact (State.applyDrives_channel_of_notMem once).trans ((s.channel_applyDrive _ _ n).trans (if_pos rfl))
    · have other : e.1 ≠ n := fun same => once (same ▸ List.mem_map_of_mem (f := Prod.fst) mem)
      exact (ih distinct mem).trans (congrArg _ ((s.channel_applyDrive _ _ n).trans (if_neg other)))

/-- The channels that legal entries set are those of their channel operands. -/
theorem settings_channels {entries : List DriveEntry}
    (legal : (entries.any fun e => (Drive.ofEntry? e.mode e.value).isNone) = false) :
    (entries.filterMap DriveEntry.setting?).map Prod.fst = channelsOf (entries.map DriveEntry.channel) := by
  rw [channelsOf, List.map_filterMap, List.filterMap_map]
  refine List.filterMap_congr fun e he => ?_
  obtain ⟨d, hd⟩ := Option.ne_none_iff_exists'.1 (mt Option.isNone_iff_eq_none.2 (List.any_eq_false.1 legal e he))
  simp only [DriveEntry.setting?, hd, Function.comp_apply]
  cases channelOf? e.channel <;> rfl

/-- What an accepted DRIVE has passed of its argument checks (R84 steps 1 to 6), and that those pass which need the lease. -/
theorem firstRefusal_drive_of_none {s : State} {st : Station} {handle count : Byte} {entries : List DriveEntry}
    (passes : firstRefusal (s.refusals (.drive st handle count entries)) = none) :
    firstFailing (driveArgumentChecks st handle count entries s) = none ∧
      ((entries.any fun e => (channelOf? e.channel).isNone) = false ∧
        (entries.any fun e => (Drive.ofEntry? e.mode e.value).isNone) = false ∧
        (entries.map DriveEntry.channel).Nodup) ∧
      ∃ e l, Handle.ofByte? handle = some e ∧ s.lookup e = some l ∧
        firstFailing (driveLeaseChecks st (entries.filterMap DriveEntry.setting?) l) = none := by
  rw [drive_refusals_eq, firstRefusal_append, firstRefusal_tabled, Option.or_eq_none_iff, Option.map_eq_none_iff] at passes
  obtain ⟨args, rest⟩ := passes
  have checks := firstFailing_eq_none.1 args
  simp only [driveArgumentChecks, List.mem_cons, List.not_mem_nil, or_false, forall_eq_or_imp, forall_eq,
    decide_eq_false_iff_not, not_not] at checks
  obtain ⟨-, -, slot, inRange, legal, distinct⟩ := checks
  refine ⟨args, ⟨inRange, legal, distinct⟩, ?_⟩
  obtain ⟨e, he⟩ := Option.isSome_iff_exists.1 (Option.isNone_eq_false_iff.1 slot)
  rw [firstRefusal_cons, State.named_of_ofByte? he] at rest
  cases hl : s.lookup e with
  | none => simp [hl] at rest
  | some l =>
    simp only [hl, reduceCtorEq, decide_false, Bool.false_eq_true, if_false] at rest
    refine ⟨e, l, he, hl, ?_⟩
    rw [← Option.map_eq_none_iff (f := Status.toByte), ← firstRefusal_tabled, ← rest]
    simp only [State.namedHas_of_lookup he hl, ← driveEntries_notInLease inRange legal]
    simp [driveLeaseChecks, tabled, Status.toByte, bne, beq_eq_decide]

/-- An accepted DRIVE applies its settings when it is taken. -/
theorem driveEffect_accepted {s : State} {st : Station} {handle count : Byte} {entries : List DriveEntry}
    (passes : firstRefusal (s.refusals (.drive st handle count entries)) = none) :
    driveEffect st handle count entries s = accept (s.applyDrives (entries.filterMap DriveEntry.setting?)) [] := by
  obtain ⟨args, -, e, l, he, hl, lease⟩ := firstRefusal_drive_of_none passes
  simp only [driveEffect, args, he, hl, lease]

/-- Settles O45: the channels of the entries are distinct, so that each is driven from the drive it had in force. -/
theorem driveCompletes : Obligations.DriveCompletes := by
  unfold Obligations.DriveCompletes
  intro s st handle count entries accepted
  obtain ⟨-, ⟨inRange, legal, distinct⟩, -⟩ := firstRefusal_drive_of_none accepted.2
  have channels := settings_channels legal
  have distinct : ((entries.filterMap DriveEntry.setting?).map Prod.fst).Nodup :=
    channels ▸ (channelsOf_of_inRange (by rw [List.any_map]; exact inRange) distinct).2
  obtain ⟨leases, beside⟩ := s.applyDrives_frame (entries.filterMap DriveEntry.setting?)
  have answer : driveEffect st handle count entries (s.beginTake st) =
      ((s.applyDrives (entries.filterMap DriveEntry.setting?)).beginTake st, [0x00#8]) := by
    rw [driveEffect_accepted (by rw [State.refusals_beginTake]; exact accepted.2), State.applyDrives_beginTake]
    rfl
  refine ⟨_, leases, beside, fun e he n number h held => ?_, fun n absent => ?_,
    .of_beginTake accepted.1 rfl answer beside.ports_eq⟩
  · obtain ⟨d, hd⟩ := Option.ne_none_iff_exists'.1 (mt Option.isNone_iff_eq_none.2 (List.any_eq_false.1 legal e he))
    have mem : (n, d) ∈ entries.filterMap DriveEntry.setting? :=
      List.mem_filterMap.2 ⟨e, he, by rw [DriveEntry.setting?, channelOf?_eq_some.2 number, hd]⟩
    rw [State.applyDrives_channel_of_mem distinct mem, Channel.redrive_held held, HeldUse.drives_eq_afterEntry hd]
  · refine State.applyDrives_channel_of_notMem fun mem => ?_
    rw [channels, channelsOf, List.filterMap_map, List.mem_filterMap] at mem
    obtain ⟨e, he, named⟩ := mem
    exact absent e he (channelOf?_eq_some.1 named)

end Sys2Proof.Machine
end

section
/-! PROOFS. Every step keeps the laws of what HELD channels drive. -/

namespace Sys2Proof.Machine

open Sys2Proof

/-! ## What a HELD channel drives, under each change of it -/

/-- The ranges of a drive record (R71, R84 step 5): a duty or a length is 1 to 255. -/
def Drive.InRange (d : Drive) : Prop := d.value ≤ 255 ∧ (3 ≤ d.modeCode → 1 ≤ d.value)

theorem Drive.inRange_steady (v : Steady) : (Drive.steady v).InRange := by
  cases v <;> simp [Drive.InRange, Drive.value, Drive.modeCode, Steady.code]

/-- A legal entry names a drive in range (R84 step 5). -/
theorem Drive.inRange_of_ofEntry? {mode value : Byte} {d : Drive} (legal : Drive.ofEntry? mode value = some d) :
    d.InRange := by
  have most : value.toNat ≤ 255 := Nat.le_of_lt_succ value.isLt
  rcases Drive.ofEntry?_cases legal with
    ⟨-, rfl⟩ | ⟨-, rfl⟩ | ⟨-, rfl⟩ | ⟨least, ⟨-, rfl⟩ | ⟨-, rfl⟩ | ⟨-, rfl⟩⟩
  · exact Drive.inRange_steady _
  · exact Drive.inRange_steady _
  · exact Drive.inRange_steady _
  · exact ⟨most, fun _ => least⟩
  · exact ⟨most, fun _ => least⟩
  · exact ⟨most, fun _ => least⟩

/-- A steady drive with no pulse running is lawful, beside a pending PWM change in range (R71, R75, R78). -/
theorem HeldUse.lawful_steady {h : Handle} {v : Steady} {pendingPwm : Option Nat}
    (change : ∀ duty ∈ pendingPwm, 1 ≤ duty ∧ duty ≤ 255) : HeldUse.Lawful ⟨h, .steady v, pendingPwm, 0⟩ :=
  ⟨change, Nat.zero_le _, by cases v <;> simp [Drive.modeCode, Steady.code], by simp [Drive.isPulse], fun _ => rfl⟩

/-- A PWM drive in range with no pulse running is lawful, beside a pending PWM change in range (R77, R78). -/
theorem HeldUse.lawful_pwm {h : Handle} {duty : Nat} {pendingPwm : Option Nat} (range : 1 ≤ duty ∧ duty ≤ 255)
    (change : ∀ duty ∈ pendingPwm, 1 ≤ duty ∧ duty ≤ 255) : HeldUse.Lawful ⟨h, .pwm duty, pendingPwm, 0⟩ :=
  ⟨change, range.2, fun _ => range.1, by simp [Drive.isPulse], fun _ => rfl⟩

/-- A pulse in range that has something left to run is lawful, with no pending PWM change (R78, R80). -/
theorem HeldUse.lawful_pulse {h : Handle} {level : Level} {length pulse : Nat} (most : length ≤ 255)
    (runs : 1 ≤ pulse ∧ pulse ≤ length) : HeldUse.Lawful ⟨h, .pulse level length, none, pulse⟩ :=
  ⟨by simp, most, by cases level <;> simp [Drive.modeCode], fun _ => ⟨runs.1, runs.2, rfl⟩, by simp [Drive.isPulse]⟩

/-- What a DRIVE entry leaves is lawful (R75, R78, R80). -/
theorem HeldUse.Lawful.drives {u : HeldUse} (h : u.Lawful) {d : Drive} (range : d.InRange) : (u.drives d).Lawful := by
  obtain ⟨most, least⟩ := range
  cases d with
  | steady v => exact HeldUse.lawful_steady (by simp)
  | pulse level length =>
    have : 1 ≤ length := least (by cases level <;> simp [Drive.modeCode])
    exact HeldUse.lawful_pulse most ⟨this, Nat.le_refl _⟩
  | pwm duty =>
    have change : ∀ k ∈ some duty, 1 ≤ k ∧ k ≤ 255 := by
      rintro _ ⟨rfl⟩; exact ⟨least (by simp [Drive.modeCode]), most⟩
    obtain ⟨lease, drive, pendingPwm, pulse⟩ := u
    obtain ⟨-, presentMost, presentLeast, -, still⟩ := h
    rcases drive with v | present | ⟨level, length⟩
    · obtain rfl : pulse = 0 := still rfl
      exact HeldUse.lawful_steady change
    · obtain rfl : pulse = 0 := still rfl
      refine HeldUse.lawful_pwm ⟨presentLeast rfl, presentMost⟩ ?_
      split
      · simp
      · exact change
    · cases level <;> exact HeldUse.lawful_steady change

/-- A lawful pulse has something left to run, so that PULSE_END finds none at its end (R81, log entry 4). -/
theorem HeldUse.Lawful.endPulse_eq {u : HeldUse} (h : u.Lawful) : u.endPulse = u := by
  obtain ⟨lease, drive, pendingPwm, pulse⟩ := u
  obtain ⟨-, -, -, runs, -⟩ := h
  rcases drive with v | duty | ⟨level, length⟩
  · rfl
  · rfl
  · cases pulse with
    | zero => exact absurd (runs rfl).1 (Nat.not_succ_le_zero 0)
    | succ left => cases level <;> rfl

/-- A lease tick leaves a lawful drive: the count that comes to 0 ends the pulse (R81). -/
theorem HeldUse.Lawful.countPulse {u : HeldUse} (h : u.Lawful) : u.countPulse.Lawful := by
  rw [HeldUse.countPulse_eq]
  obtain ⟨lease, drive, pendingPwm, pulse⟩ := u
  obtain ⟨change, most, least, runs, still⟩ := h
  rcases drive with v | duty | ⟨level, length⟩
  · obtain rfl : pulse = 0 := still rfl
    exact HeldUse.lawful_steady change
  · obtain rfl : pulse = 0 := still rfl
    exact HeldUse.lawful_pwm ⟨least rfl, most⟩ change
  · obtain ⟨left, within, rfl⟩ : 1 ≤ pulse ∧ pulse ≤ length ∧ pendingPwm = none := runs rfl
    simp only [HeldUse.afterTick, Nat.one_le_iff_ne_zero.1 left, if_false]
    split
    · exact HeldUse.lawful_steady change
    · exact HeldUse.lawful_pulse most (by omega)

/-- A frame start leaves a lawful drive: a PWM change is pending beside no pulse (R78, R79). -/
theorem HeldUse.Lawful.startFrame {u : HeldUse} (h : u.Lawful) : u.startFrame.Lawful := by
  obtain ⟨lease, drive, pendingPwm, pulse⟩ := u
  cases pendingPwm with
  | none => exact h
  | some duty =>
    obtain ⟨change, -, -, runs, still⟩ := h
    cases pulsed : drive.isPulse with
    | true => obtain ⟨-, -, none⟩ := runs pulsed; cases none
    | false =>
      obtain rfl : pulse = 0 := still pulsed
      exact HeldUse.lawful_pwm (change duty rfl) (by simp)

/-! ## A channel under each change of it -/

/-- What the channel drives, if it is HELD, is lawful. -/
abbrev Channel.DriveLawful (c : Channel) : Prop := ∀ u ∈ c.held?, u.Lawful

/-- The laws of what a channel drives rest on its use alone. -/
theorem Channel.DriveLawful.of_use {c d : Channel} (h : c.DriveLawful) (use : d.use = c.use) : d.DriveLawful := by
  rwa [Channel.DriveLawful, Channel.held?, use]

theorem Channel.driveLawful_held {c : Channel} {u : HeldUse} (held : c.use = .held u) : c.DriveLawful ↔ u.Lawful := by
  simp [Channel.DriveLawful, Channel.held?, held]

theorem Channel.driveLawful_of_not_held {c : Channel} (free : c.isHeld = false) : c.DriveLawful := by
  cases use : c.use with
  | held u => simp [Channel.isHeld, use] at free
  | idle => simp [Channel.DriveLawful, Channel.held?, use]
  | faulted => simp [Channel.DriveLawful, Channel.held?, use]

/-- A granted channel drives its fallback (R10). -/
theorem Channel.driveLawful_grantedTo (h : Handle) (c : Channel) : (c.grantedTo h).DriveLawful :=
  (Channel.driveLawful_held rfl).2 (HeldUse.lawful_steady (by simp))

theorem Channel.DriveLawful.redrive {c : Channel} (h : c.DriveLawful) {f : HeldUse → HeldUse}
    (keeps : ∀ u : HeldUse, u.Lawful → (f u).Lawful) : (c.redrive f).DriveLawful := by
  cases use : c.use with
  | held u =>
    have lawful := keeps u ((Channel.driveLawful_held use).1 h)
    rw [Channel.redrive_held use, Channel.nowDriving]
    split
    · exact (Channel.driveLawful_held rfl).2 lawful
    · exact (Channel.driveLawful_held rfl).2 lawful
  | idle => rwa [Channel.redrive_of_not_held (by rw [Channel.isHeld, use])]
  | faulted => rwa [Channel.redrive_of_not_held (by rw [Channel.isHeld, use])]

/-- The end of a settle window changes the checker alone (R93). -/
theorem Channel.settleEnds_use (c : Channel) : c.settleEnds.use = c.use := by
  unfold Channel.settleEnds
  repeat' split
  all_goals rfl

/-- A comparison changes the checker alone (R94). -/
theorem Channel.compare_use (c : Channel) : c.compare.use = c.use := by
  unfold Channel.compare
  repeat' split
  all_goals rfl

/-- A restart of the settle changes the checker alone (R101). -/
theorem Channel.restartSettle_use (c : Channel) : c.restartSettle.use = c.use := by
  unfold Channel.restartSettle
  split <;> rfl

/-! ## The state under each change -/

/-- The laws of the drives rest on the channel table alone. -/
theorem State.DrivesLawful.of_channels {s t : State} (h : s.DrivesLawful) (channels : t.channels = s.channels) :
    t.DrivesLawful := fun n => by
  rw [State.channel, channels]
  exact h n

theorem State.DrivesLawful.channel {s : State} (h : s.DrivesLawful) (n : ChannelNo) : (s.channel n).DriveLawful := h n

theorem State.DrivesLawful.setChannel {s : State} (h : s.DrivesLawful) {n : ChannelNo} {x : Channel} (hx : x.DriveLawful) :
    (s.setChannel n x).DrivesLawful := fun k => by
  rw [State.channel_setChannel]
  split
  · exact hx
  · exact h k

theorem State.DrivesLawful.mapChannels {s : State} (h : s.DrivesLawful) {f : ChannelNo → Channel → Channel}
    (keeps : ∀ n (c : Channel), c.DriveLawful → (f n c).DriveLawful) : (s.mapChannels f).DrivesLawful := fun n => by
  rw [State.channel_mapChannels]
  exact keeps n _ (h n)

/-- The channels that leave HELD with their leases drive nothing, and the others what they drove (R13). -/
theorem State.DrivesLawful.leavesTables {s t : State} (h : s.DrivesLawful) {p : SlotNo → Bool}
    (left : LeavesTables s t p) : t.DrivesLawful := fun n => by
  obtain ⟨gone, stays, -⟩ := left
  by_cases leaves : s.InHeldSlot p n
  · rw [gone n leaves]
    exact Channel.driveLawful_of_not_held rfl
  · rw [stays n leaves]
    exact h n

theorem State.DrivesLawful.lapse {s : State} (h : s.DrivesLawful) (p : SlotNo → Bool) (cause : LapseCause) :
    (s.lapse p cause).DrivesLawful :=
  h.leavesTables (s.lapse_spec p cause).1

theorem State.DrivesLawful.free {s : State} (h : s.DrivesLawful) (p : SlotNo → Bool) : (s.free p).DrivesLawful :=
  h.leavesTables (s.free_spec p).1

theorem State.DrivesLawful.makeHeld {s : State} (h : s.DrivesLawful) (i : SlotNo) : (s.makeHeld i).DrivesLawful := by
  cases hl : s.leaseAt i with
  | none => rw [State.makeHeld, hl]; exact h
  | some l =>
    intro n
    rw [State.makeHeld_channel hl]
    split
    · exact Channel.driveLawful_grantedTo _ _
    · exact h n

theorem State.DrivesLawful.grantWaiting {s : State} (h : s.DrivesLawful) (e : Handle) : (s.grantWaiting e).DrivesLawful :=
  (h.makeHeld e.slot).of_channels (by simp only [State.grantWaiting, State.mapSlots_channels])

theorem State.DrivesLawful.grantEvaluation {s : State} (h : s.DrivesLawful) : s.grantEvaluation.DrivesLawful :=
  State.grantEvaluation_keeps (P := State.DrivesLawful) (fun _ e _ _ _ _ ht => ht.grantWaiting e) s h

theorem State.DrivesLawful.evaluateIf {s : State} (h : s.DrivesLawful) (triggered : Bool) :
    (s.evaluateIf triggered).DrivesLawful := by
  unfold State.evaluateIf
  split
  · exact h.grantEvaluation
  · exact h

theorem State.DrivesLawful.enterHold {s : State} (h : s.DrivesLawful) (k : HoldCause) : (s.enterHold k).DrivesLawful := by
  unfold State.enterHold
  split
  · exact (h.lapse _ k.lapseCause).of_channels (by dsimp only)
  · exact h

theorem State.DrivesLawful.leaveHold {s : State} (h : s.DrivesLawful) (k : HoldCause) : (s.leaveHold k).DrivesLawful := by
  unfold State.leaveHold
  dsimp only
  split
  · exact State.DrivesLawful.grantEvaluation h
  · exact h

theorem State.DrivesLawful.expireDue {s : State} (h : s.DrivesLawful) : s.expireDue.DrivesLawful :=
  (h.lapse _ .expired).evaluateIf _

theorem State.DrivesLawful.leaseTick {s : State} (h : s.DrivesLawful) : s.leaseTick.DrivesLawful := by
  refine State.DrivesLawful.expireDue ?_
  have counted : (State.mapChannels { s with clock := s.clock.advance } fun _ c => c.redrive .countPulse).DrivesLawful :=
    State.DrivesLawful.mapChannels h fun _ _ hc => hc.redrive fun _ hu => hu.countPulse
  exact counted.of_channels (State.mapSlots_channels _ _)

theorem State.DrivesLawful.internalTick {s : State} (h : s.DrivesLawful) : s.internalTick.DrivesLawful := by
  unfold State.internalTick
  split
  · exact State.DrivesLawful.leaseTick h
  · exact h

theorem State.DrivesLawful.takeEdge {s : State} (h : s.DrivesLawful) : s.takeEdge.DrivesLawful := by
  unfold State.takeEdge
  split
  · unfold State.countEdge
    dsimp only
    split
    · exact State.DrivesLawful.leaseTick h
    · exact h
  · unfold State.recoverClock
    refine State.DrivesLawful.leaveHold ?_ .clock
    exact h

theorem State.DrivesLawful.silenceExpiry {s : State} (h : s.DrivesLawful) : s.silenceExpiry.DrivesLawful := by
  unfold State.silenceExpiry
  split
  · exact h
  · refine State.DrivesLawful.enterHold ?_ .clock
    exact h

theorem State.DrivesLawful.startFrame {s : State} (h : s.DrivesLawful) : s.startFrame.DrivesLawful :=
  (h.mapChannels (f := fun _ c => c.redrive .startFrame) fun _ _ hc => hc.redrive fun _ hu => hu.startFrame).of_channels
    (by simp only [State.startFrame])

theorem State.DrivesLawful.supplyLow {s : State} (h : s.DrivesLawful) : s.supplyLow.DrivesLawful := by
  unfold State.supplyLow
  split
  · exact h
  · dsimp only
    split
    · refine State.DrivesLawful.enterHold ?_ .supply
      exact h
    · exact h
    · exact h

theorem State.DrivesLawful.recoveryExpiry {s : State} (h : s.DrivesLawful) : s.recoveryExpiry.DrivesLawful := by
  unfold State.recoveryExpiry
  split
  · refine State.DrivesLawful.leaveHold ?_ .supply
    exact h
  · exact h
  · exact h

theorem State.DrivesLawful.settleEnd {s : State} (h : s.DrivesLawful) (n : ChannelNo) : (s.settleEnd n).DrivesLawful :=
  h.setChannel ((h.channel n).of_use (s.channel n).settleEnds_use)

/-- A channel that becomes FAULTED drives nothing (R95, R96). -/
theorem Channel.driveLawful_fault (c : Channel) : c.fault.DriveLawful :=
  Channel.driveLawful_of_not_held (by rw [Channel.fault_eq]; rfl)

theorem State.DrivesLawful.senseFault {s : State} (h : s.DrivesLawful) (n : ChannelNo) : (s.senseFault n).DrivesLawful := by
  have faulted := h.setChannel (n := n) (s.channel n).driveLawful_fault
  unfold State.senseFault State.takeFault
  split
  · split
    · next u held =>
      exact ((faulted.lapse (fun i => i == u.lease.slot) .fault).of_channels
        (by simp only [State.raiseFault])).grantEvaluation
    · exact faulted
    · exact h
  · exact h

/-- After a device reset every channel is IDLE (R89). -/
theorem State.endReset_drivesLawful (s : State) : s.endReset.DrivesLawful := fun n =>
  Channel.driveLawful_of_not_held (by simp [State.channel, State.endReset, Channel.afterReset, Channel.isHeld])

theorem State.DrivesLawful.take {s : State} (h : s.DrivesLawful) (d : Due) : (d.take s).DrivesLawful := by
  cases d with
  | leaseTick => exact h.internalTick
  | silenceExpiry => exact h.silenceExpiry
  | frameStart => exact h.startFrame
  | supplyLow => exact h.supplyLow
  | recoveryExpiry => exact h.recoveryExpiry
  | settleEnd n => exact h.settleEnd n
  | senseFault n => exact h.senseFault n
  | resetEnd => exact s.endReset_drivesLawful

theorem State.DrivesLawful.passMicrosecond {s : State} (h : s.DrivesLawful) : s.passMicrosecond.DrivesLawful := by
  refine takeDue_keeps (P := State.DrivesLawful) (fun _ _ ht => ht) (fun d _ ht => ht.take d) mostDue _ ?_
  unfold State.advanceTimers
  split
  · exact h
  · exact (h.mapChannels (f := fun _ c => c.advance) fun _ _ hc => hc).of_channels (by dsimp only)

/-! ## The requests -/

/-- A request whose effect keeps the laws of the drives keeps them when it is taken. -/
theorem State.DrivesLawful.engineTake {s t : State} {st : Station} {bytes : List Byte} {effect : State → Answer}
    (h : s.DrivesLawful) (keeps : ∀ w : State, w.DrivesLawful → (effect w).1.DrivesLawful)
    (taken : Machine.engineTake st bytes effect s = .next t) : t.DrivesLawful := by
  rcases engineTake_cases taken with ⟨-, channels, -⟩ | ⟨w, ⟨-, channels, -⟩, -, rfl⟩
  · exact h.of_channels channels
  · exact keeps w (h.of_channels channels)

/-- A request whose effect leaves the channel table as it is. -/
theorem State.DrivesLawful.engineTake_sameChannels {s t : State} {st : Station} {bytes : List Byte}
    {effect : State → Answer} (h : s.DrivesLawful) (same : ∀ w : State, SameChannels w (effect w).1)
    (taken : Machine.engineTake st bytes effect s = .next t) : t.DrivesLawful :=
  h.engineTake (fun w hw => hw.of_channels (same w)) taken

theorem State.DrivesLawful.detachEffect {s : State} (h : s.DrivesLawful) (st : Station) :
    (Machine.detachEffect st s).1.DrivesLawful := by
  unfold Machine.detachEffect
  split
  · exact h
  · refine State.DrivesLawful.evaluateIf ?_ _
    exact (h.free (s.ownedBy st)).of_channels (State.setStation_channels _ _ _)

theorem State.DrivesLawful.applyDrives {s : State} (h : s.DrivesLawful) {settings : List (ChannelNo × Drive)}
    (range : ∀ e ∈ settings, e.2.InRange) : (s.applyDrives settings).DrivesLawful :=
  List.foldlRecOn settings _ h fun _ ht e he =>
    ht.setChannel ((ht.channel e.1).redrive fun _ hu => hu.drives (range e he))

/-- The settings of a DRIVE are in range, whatever its entries (R84). -/
theorem settings_inRange {entries : List DriveEntry} {e : ChannelNo × Drive}
    (mem : e ∈ entries.filterMap DriveEntry.setting?) : e.2.InRange := by
  obtain ⟨entry, -, set⟩ := List.mem_filterMap.1 mem
  unfold DriveEntry.setting? at set
  split at set
  · next legal => cases set; exact Drive.inRange_of_ofEntry? legal
  · cases set

theorem State.DrivesLawful.driveEffect {s : State} (h : s.DrivesLawful) (st : Station) (handle count : Byte)
    (entries : List DriveEntry) : (Machine.driveEffect st handle count entries s).1.DrivesLawful := by
  unfold Machine.driveEffect
  repeat' split
  all_goals try exact h
  dsimp only
  split
  · exact h
  · exact h.applyDrives fun _ => settings_inRange

theorem State.DrivesLawful.releaseEffect {s : State} (h : s.DrivesLawful) (st : Station) (handle : Byte) :
    (Machine.releaseEffect st handle s).1.DrivesLawful := by
  unfold Machine.releaseEffect
  repeat' split
  all_goals try exact h
  exact (h.free _).evaluateIf _

theorem State.DrivesLawful.revokeEffect {s : State} (h : s.DrivesLawful) (st : Station) (handle : Byte) :
    (Machine.revokeEffect st handle s).1.DrivesLawful := by
  unfold Machine.revokeEffect
  repeat' split
  all_goals try exact h
  exact (h.lapse _ _).grantEvaluation

/-- A configuration keeps the channel's use (R87). -/
theorem Channel.configure_use (c : Channel) (fallback : Steady) (senseCheck : Bool) (minClass : Fin 4) :
    (c.configure fallback senseCheck minClass).use = c.use :=
  (Channel.recheck_kept _ _).1

theorem State.DrivesLawful.configChannelEffect {s : State} (h : s.DrivesLawful) (st : Station)
    (channel config minClass : Byte) : (Machine.configChannelEffect st channel config minClass s).1.DrivesLawful := by
  unfold Machine.configChannelEffect
  repeat' split
  all_goals try exact h
  exact h.setChannel ((h.channel _).of_use (Channel.configure_use _ _ _ _))

theorem State.DrivesLawful.configClockEffect {s : State} (h : s.DrivesLawful) (st : Station)
    (sourceEdge rate silence frame settle : Byte) :
    (Machine.configClockEffect st sourceEdge rate silence frame settle s).1.DrivesLawful := by
  unfold Machine.configClockEffect
  split
  · exact h
  · refine State.DrivesLawful.mapChannels (State.DrivesLawful.startFrame ?_) fun _ c hc => hc.of_use c.restartSettle_use
    split
    · refine State.DrivesLawful.leaveHold ?_ .clock
      exact h
    · exact h

theorem State.DrivesLawful.clearFaultEffect {s : State} (h : s.DrivesLawful) (st : Station) (channel : Byte) :
    (Machine.clearFaultEffect st channel s).1.DrivesLawful := by
  unfold Machine.clearFaultEffect
  repeat' split
  all_goals try exact h
  unfold accept State.clearFault
  dsimp only
  split
  · refine State.DrivesLawful.grantEvaluation (h.setChannel (Channel.driveLawful_of_not_held ?_))
    rw [Channel.toFallback_eq]; rfl
  · exact h

theorem State.DrivesLawful.restartEffect {s : State} (h : s.DrivesLawful) (st : Station) :
    (Machine.restartEffect st s).1.DrivesLawful := by
  unfold Machine.restartEffect
  split
  · exact h
  · exact (h.free fun _ => true).of_channels (by simp only [accept, State.restart, State.mapStations_channels])

theorem State.DrivesLawful.claimOutcome {s : State} (h : s.DrivesLawful) (options : Byte) (i : SlotNo) (l : Lease) :
    (Machine.claimOutcome options i l s).1.DrivesLawful := by
  unfold Machine.claimOutcome
  split
  · exact State.DrivesLawful.makeHeld (s := s.create i l) h i
  · split
    · have lapsed : ((s.lapse (s.victims l.channels) .preempted).create i l).DrivesLawful :=
        (h.lapse _ _).of_channels (State.setSlot_channels _ _ _)
      exact (lapsed.makeHeld i).evaluateIf _
    · repeat' split
      all_goals exact h

theorem State.DrivesLawful.claimEffect {s : State} (h : s.DrivesLawful) (st : Station) (options : Byte) (term : Word)
    (warnMargin count : Byte) (channels : List Byte) :
    (Machine.claimEffect st options term warnMargin count channels s).1.DrivesLawful := by
  unfold Machine.claimEffect
  repeat' split
  all_goals try exact h
  exact h.claimOutcome options _ _

/-! ## Every command -/

theorem State.DrivesLawful.writeCycle {s : State} (h : s.DrivesLawful) (p : Station) (cycle : Port → Port) :
    (s.writeCycle p cycle).DrivesLawful := by
  unfold State.writeCycle
  split <;> exact h

theorem State.DrivesLawful.readCycle {s : State} (h : s.DrivesLawful) (p : Station) (cycle : Port → Port) :
    (s.readCycle p cycle).DrivesLawful := by
  unfold State.readCycle
  split <;> exact h

theorem State.DrivesLawful.supplyTo {s : State} (h : s.DrivesLawful) (mv : Nat) : (s.supplyTo mv).DrivesLawful := by
  unfold State.supplyTo
  dsimp only
  split <;> exact h

/-- An event that does not come while a device reset lasts. -/
theorem State.DrivesLawful.outsideReset {s t u : State} (h : s.DrivesLawful) (hu : u.DrivesLawful)
    (taken : (.next (if s.resetCtl.active then s else u) : Host.Outcome State Fault Refusal) = .next t) :
    t.DrivesLawful := by
  cases taken
  split
  · exact h
  · exact hu

/-- Every command keeps the laws of what HELD channels drive (R71, R77, R78). -/
theorem exec_keeps_drivesLawful (i : Instr) (s t : State) (h : s.DrivesLawful) (taken : exec i s = .next t) :
    t.DrivesLawful := by
  cases i with
  | readStatus st => exact h.engineTake_sameChannels (fun _ => rfl) taken
  | queryChannel st channel =>
    refine h.engineTake_sameChannels (fun w => ?_) taken
    unfold queryChannelEffect
    split <;> rfl
  | queryLease st handle =>
    refine h.engineTake_sameChannels (fun w => ?_) taken
    unfold queryLeaseEffect
    repeat' split
    all_goals rfl
  | listLeases st station =>
    refine h.engineTake_sameChannels (fun w => ?_) taken
    unfold listLeasesEffect
    split <;> rfl
  | attach st =>
    refine h.engineTake_sameChannels (fun w => ?_) taken
    unfold attachEffect
    split <;> rfl
  | detach st => exact h.engineTake (fun _ hw => hw.detachEffect st) taken
  | setMask st mask =>
    refine h.engineTake_sameChannels (fun w => ?_) taken
    unfold setMaskEffect
    split <;> rfl
  | poll st =>
    refine h.engineTake_sameChannels (fun w => ?_) taken
    unfold pollEffect
    split
    · rfl
    · simp only [SameChannels, accept, State.clearNotices, State.mapSlots_channels]
  | claim st options term warnMargin count channels =>
    exact h.engineTake (fun _ hw => hw.claimEffect st options term warnMargin count channels) taken
  | renew st handle newTerm =>
    refine h.engineTake_sameChannels (fun w => ?_) taken
    unfold renewEffect
    repeat' split
    all_goals rfl
  | renewAll st =>
    refine h.engineTake_sameChannels (fun w => ?_) taken
    unfold renewAllEffect
    split
    · rfl
    · exact State.mapSlots_channels _ _
  | drive st handle count entries => exact h.engineTake (fun _ hw => hw.driveEffect st handle count entries) taken
  | release st handle => exact h.engineTake (fun _ hw => hw.releaseEffect st handle) taken
  | configChannel st channel config minClass =>
    exact h.engineTake (fun _ hw => hw.configChannelEffect st channel config minClass) taken
  | configStation st station cls quota =>
    refine h.engineTake_sameChannels (fun w => ?_) taken
    unfold configStationEffect
    repeat' split
    all_goals rfl
  | configClock st sourceEdge rate silence frame settle =>
    exact h.engineTake (fun _ hw => hw.configClockEffect st sourceEdge rate silence frame settle) taken
  | configSupply st index =>
    refine h.engineTake_sameChannels (fun w => ?_) taken
    unfold configSupplyEffect
    repeat' split
    all_goals rfl
  | clearFault st channel => exact h.engineTake (fun _ hw => hw.clearFaultEffect st channel) taken
  | revoke st handle => exact h.engineTake (fun _ hw => hw.revokeEffect st handle) taken
  | restart st => exact h.engineTake (fun _ hw => hw.restartEffect st) taken
  | commandByte p code => cases taken; exact h.writeCycle p _
  | dataByte p b => cases taken; exact h.writeCycle p _
  | unknownCommandByte p b => cases taken; exact h.writeCycle p _
  | abort p => cases taken; exact h.writeCycle p _
  | replay p => cases taken; exact h.writeCycle p _
  | statusRead p => cases taken; exact h.readCycle p _
  | dataRead p => cases taken; exact h.readCycle p _
  | leaseTick => exact h.outsideReset h.internalTick taken
  | leaseExpiry => exact h.outsideReset h.expireDue taken
  | pulseEnd n => exact h.outsideReset (h.setChannel ((h.channel n).redrive fun _ hu => hu.endPulse_eq.symm ▸ hu)) taken
  | frameStart => exact h.outsideReset h.startFrame taken
  | senseChange n level =>
    cases taken
    split
    · exact h.setChannel (h n)
    · exact h.setChannel ((h.channel n).of_use (Channel.compare_use _))
  | settleEnd n => exact h.outsideReset (h.settleEnd n) taken
  | senseFault n => exact h.outsideReset (h.senseFault n) taken
  | qualifyingEdge edge =>
    cases taken
    repeat' split
    · exact h
    · refine State.DrivesLawful.takeEdge ?_
      exact h
    · exact h
  | silenceExpiry => exact h.outsideReset h.silenceExpiry taken
  | supplyBelowVt mv => cases taken; exact h.supplyTo mv
  | supplyAboveVt mv => cases taken; exact h.supplyTo mv
  | supplyLowEvent => exact h.outsideReset h.supplyLow taken
  | supplyRise mv =>
    cases taken
    split
    · exact h.supplyTo mv
    · exact h.supplyTo mv
  | recoveryExpiry => exact h.outsideReset h.recoveryExpiry taken
  | deviceReset condition =>
    cases condition with
    | supply mv => cases taken; exact h.supplyTo mv
    | pin => cases taken; exact h
  | resetEnd =>
    cases taken
    split
    · exact s.endReset_drivesLawful
    · exact h
  | lastResetConditionClears condition =>
    cases condition with
    | supply mv => cases taken; exact h.supplyTo mv
    | pin => cases taken; exact h

/-- Settles O11: the laws of the drives are kept by every command, by the engine's own take, and by the passing of time. -/
theorem stepKeepsDriveLaws : Obligations.StepKeepsDriveLaws := by
  unfold Obligations.StepKeepsDriveLaws
  intro s t h taken
  exact step_keeps (P := State.DrivesLawful) (fun _ _ hs => hs) exec_keeps_drivesLawful
    (fun _ hs => hs.passMicrosecond) h taken

end Sys2Proof.Machine
end

section
/-! PROOFS. Sense checking and channel faults, and CONFIG_CLOCK, which restarts every settle. -/

namespace Sys2Proof.Machine

open Sys2Proof

/-! ## The checker's comparisons -/

/-- The sense level disagrees where it is not the checked level (R91). -/
theorem Channel.disagrees_of_checked {c : Channel} {checked : Level} (level : c.checkedLevel = some checked) :
    c.disagrees = decide (c.senseLevel ≠ checked) := by
  simp [Channel.disagrees, level, bne, beq_eq_decide]

/-- A comparison with a checked level moves WATCHING on a mismatch and MISMATCH on agreement (R94). -/
theorem Channel.compare_eq {c : Channel} {checked : Level} (level : c.checkedLevel = some checked) :
    c.compare =
      if c.phase = .watching ∧ c.senseLevel ≠ checked then c.mismatched
      else if c.phase = .mismatch ∧ c.senseLevel = checked then c.rest .watching
      else c := by
  unfold Channel.compare
  rw [Channel.disagrees_of_checked level]
  cases phase : c.phase <;> by_cases agrees : c.senseLevel = checked <;> simp [agrees]

/-- Outside WATCHING and MISMATCH the checker does not compare (R94). -/
theorem Channel.compare_of_not_comparing {c : Channel} (watching : c.phase ≠ .watching) (mismatch : c.phase ≠ .mismatch) :
    c.compare = c := by
  unfold Channel.compare
  split
  · next phase => exact absurd phase watching
  · next phase => exact absurd phase mismatch
  all_goals rfl

/-- The end of the settle window compares with the checked level (R93). -/
theorem Channel.settleEnds_eq {c : Channel} {checked : Level} (settling : c.phase = .settling)
    (level : c.checkedLevel = some checked) :
    c.settleEnds = if c.senseLevel = checked then c.rest .watching else c.mismatched := by
  rw [Channel.settleEnds, settling, Channel.disagrees_of_checked level]
  by_cases agrees : c.senseLevel = checked <;> simp [agrees]

/-- Outside SETTLING no settle window ends (R93). -/
theorem Channel.settleEnds_of_not_settling {c : Channel} (settled : c.phase ≠ .settling) : c.settleEnds = c := by
  unfold Channel.settleEnds
  split
  · next phase => exact absurd phase settled
  all_goals rfl

/-- A channel replaced by itself. -/
theorem State.setChannel_self (s : State) (n : ChannelNo) : s.setChannel n (s.channel n) = s := by
  simp [State.setChannel, State.channel]

/-- Settles O49: each event is the checker's own comparison, on the channel with its new input for SENSE_CHANGE. -/
theorem senseEvents : Obligations.SenseEvents := by
  unfold Obligations.SenseEvents
  intro s n level running
  have change : exec (.senseChange n level) s = .next (s.setChannel n ((s.channel n).sense level).compare) := by
    simp only [exec, execSenseChange, running, Bool.false_eq_true, if_false]
  have settle : exec (.settleEnd n) s = .next (s.setChannel n (s.channel n).settleEnds) := by
    simp only [exec, execSettleEnd, running, Bool.false_eq_true, if_false, State.settleEnd]
  rw [change, settle]
  refine ⟨fun checked present => ?_, fun watching mismatch => ?_, fun checked settling present => ?_, fun settled => ?_⟩
  · have presented : ((s.channel n).sense level).checkedLevel = some checked := present
    rw [Channel.compare_eq presented]
    rfl
  · rw [Channel.compare_of_not_comparing (c := (s.channel n).sense level) watching mismatch]
    rfl
  · rw [Channel.settleEnds_eq settling present]
    rfl
  · rw [Channel.settleEnds_of_not_settling settled, State.setChannel_self]

/-! ## SENSE_FAULT -/

/-- Settles O50: a fault is taken in MISMATCH, and what it takes with it depends on the channel's use. -/
theorem senseFaultCompletes : Obligations.SenseFaultCompletes := by
  unfold Obligations.SenseFaultCompletes
  intro s n running
  have taken : exec (.senseFault n) s = .next (if (s.channel n).phase = .mismatch then s.takeFault n else s) := by
    simp only [exec, execSenseFault, running, Bool.false_eq_true, if_false, State.senseFault]
  rw [taken]
  refine ⟨fun mismatch idle => ?_, fun u mismatch held => ?_, fun other => by rw [if_neg other]⟩
  · rw [if_pos mismatch, State.takeFault, idle]
    rfl
  · rw [if_pos mismatch, State.takeFault, held, ← onlySlot_eq, ← Channel.fault_eq]
    exact ⟨_, State.lapse_spec _ _ _, rfl⟩

/-! ## CLEAR_FAULT -/

/-- The clearing of a fault in the terms of the claims (R98). -/
theorem State.clearFault_eq (s : State) (n : ChannelNo) :
    s.clearFault n =
      if (s.channel n).use = .faulted then (s.setChannel n (s.channel n).atFallback).grantEvaluation else s := by
  rw [State.clearFault, Channel.toFallback_eq]
  exact if_congr (by simp [Channel.isFaulted]) rfl rfl

theorem State.clearFault_beginTake (s : State) (st : Station) (n : ChannelNo) :
    (s.beginTake st).clearFault n = (s.clearFault n).beginTake st := by
  have set : (s.beginTake st).setChannel n (s.channel n).toFallback =
      (s.setChannel n (s.channel n).toFallback).beginTake st := rfl
  unfold State.clearFault
  rw [State.beginTake_channel, set, State.grantEvaluation_beginTake]
  split <;> rfl

/-- The clearing of a fault has no part in the ports. -/
theorem State.clearFault_ports (s : State) (n : ChannelNo) : (s.clearFault n).ports = s.ports := by
  unfold State.clearFault
  split
  · exact (State.grantEvaluation_frame _).ports_eq
  · rfl

/-- Settles O51: the channel that the operand names is cleared. -/
theorem clearFaultCompletes : Obligations.ClearFaultCompletes := by
  unfold Obligations.ClearFaultCompletes
  intro s st channel n accepted number
  obtain ⟨supervisor, -⟩ := firstRefusal_supervisor_of_none accepted.2
  rw [← State.clearFault_eq]
  refine .of_beginTake accepted.1 rfl ?_ (s.clearFault_ports n)
  have supervisor : firstFailing ((s.beginTake st).supervisorChecks st) = none := supervisor
  simp only [clearFaultEffect, supervisor, channelOf?_eq_some.2 number, State.clearFault_beginTake]
  rfl

/-! ## CONFIG_CLOCK -/

/-- The clock's settings in the terms of the claims (R127). -/
theorem LeaseClock.configure_eq (sourceEdge rate silence frame settle : Byte) (c : LeaseClock) :
    c.configure sourceEdge rate silence frame settle =
      { source := if sourceEdge.getLsbD 0 then .external else .internal
        periodIndex := if sourceEdge.getLsbD 0 then c.periodIndex else Fin.ofNat 8 rate.toNat
        edge := if sourceEdge.getLsbD 1 then .falling else .rising
        divisorIndex := if sourceEdge.getLsbD 0 then Fin.ofNat 3 rate.toNat else c.divisorIndex
        silenceLimit := silence.toNat
        prescale := 0
        silenceTimer := if sourceEdge.getLsbD 0 = true ∧ silence.toNat ≠ 0 then some 0 else none
        state := .running
        tickCounter := c.tickCounter
        frameIndex := Fin.ofNat 4 frame.toNat
        settleMs := settle.toNat } := by
  unfold LeaseClock.configure clockSourceOf clockEdgeOf LeaseClock.restartedSilence
  cases sourceEdge.getLsbD 0 with
  | false => simp
  | true => simp

/-- The restart of a settle in the terms of the claims (R101). -/
theorem Channel.restartSettle_eq (c : Channel) :
    c.restartSettle =
      if c.phase = .settling ∨ c.phase = .watching ∨ c.phase = .mismatch then
        { c with phase := .settling, settleTimer := some 0, mismatchTimer := none }
      else c := by
  unfold Channel.restartSettle Channel.settle
  cases c.phase <;> simp

/-- An accepted CONFIG_CLOCK passes the model's own checks (R126). -/
theorem configClockChecks_pass {s : State} {st : Station} {sourceEdge rate silence frame settle : Byte}
    (passes : firstRefusal (s.refusals (.configClock st sourceEdge rate silence frame settle)) = none) :
    firstFailing (configClockChecks st sourceEdge rate silence frame settle s) = none := by
  obtain ⟨supervisor, rest⟩ := firstRefusal_supervisor_of_none passes
  rw [firstFailing_eq_none] at supervisor ⊢
  simp only [firstRefusal_eq_none, List.mem_cons, List.not_mem_nil, or_false, forall_eq_or_imp, forall_eq,
    State.decide_someLease] at rest
  obtain ⟨arguments, unused⟩ := rest
  have argumentsPass : configClockBadArg sourceEdge rate silence frame settle = false := by
    rw [← arguments]
    unfold configClockBadArg clockSourceOf
    cases sourceEdge.getLsbD 0 <;> simp [Bool.or_assoc]
  simpa [configClockChecks, State.anyInForce, argumentsPass, unused] using supervisor

/-- Where no lease is in force, no handle names a HELD or a PENDING one. -/
theorem State.not_inForce_of_lookup {s : State} (idle : s.anyInForce = false) {h : Handle} {l : Lease}
    (named : s.lookup h = some l) : l.isHeld = false ∧ l.isPending = false := by
  obtain ⟨at_slot, -⟩ := State.leaseAt_of_lookup named
  rw [State.anyInForce, State.anyLease, List.any_eq_false] at idle
  simpa [State.slotHas, at_slot] using idle h.slot (List.mem_finRange _)

/-- Where no lease is in force, none waits (R35). -/
theorem State.WaitListLawful.waitList_eq_nil {s : State} (lawful : s.WaitListLawful) (idle : s.anyInForce = false) :
    s.waitList = [] := by
  refine List.eq_nil_iff_forall_not_mem.2 fun h waits => ?_
  obtain ⟨l, named⟩ := lawful.lookup waits
  obtain ⟨-, quiet⟩ := State.not_inForce_of_lookup idle named
  obtain ⟨-, -, pending, -⟩ := lawful
  have names := pending h waits
  simp [State.namesPending, named, quiet] at names

/-- Where no lease is in force, no channel is HELD (R72). -/
theorem State.HoldingsAgree.not_held {s : State} (agree : s.HoldingsAgree) (idle : s.anyInForce = false) (n : ChannelNo) :
    (s.channel n).isHeld = false := by
  obtain ⟨holders, -⟩ := agree
  cases use : (s.channel n).use with
  | idle => rw [Channel.isHeld, use]
  | faulted => rw [Channel.isHeld, use]
  | held u =>
    have names : s.namesHolder n u.lease = true := holders n u.lease (by simp [Channel.holding, use])
    unfold State.namesHolder at names
    cases named : s.lookup u.lease with
    | none => rw [named] at names; cases names
    | some l =>
      obtain ⟨quiet, -⟩ := State.not_inForce_of_lookup idle named
      simp [named, quiet] at names

/-- The CLOCK cause leaves while no lease waits: CLEAR is raised if hold-down ends, and there is nothing to grant (R138, R141). -/
theorem State.leaveHold_clock {s : State} (present : s.causes.clock = true) (empty : s.waitList = []) :
    s.leaveHold .clock =
      { s with
        causes := ⟨s.causes.supply, false⟩
        deviceNotices := if s.causes.supply = false then { s.deviceNotices with clear := true } else s.deviceNotices } := by
  have held : s.causes.isEmpty = false := by simp [HoldCauses.isEmpty, present]
  cases supply : s.causes.supply with
  | true =>
    rw [State.leaveHold_stays .clock (by simp [HoldCauses.isEmpty, HoldCauses.put, supply])]
    simp [HoldCauses.put, supply]
  | false =>
    rw [State.leaveHold_last .clock held (by simp [HoldCauses.isEmpty, HoldCauses.put, supply])]
    simp [State.grantEvaluation, empty, evaluationPass, HoldCauses.put, supply]

/-- A change of the channels that leaves each of them leaves the state. -/
theorem State.mapChannels_self {s : State} {f : ChannelNo → Channel → Channel}
    (keeps : ∀ n, f n (s.channel n) = s.channel n) : s.mapChannels f = s := by
  have same : (s.mapChannels f).channels = s.channels :=
    State.channels_ext fun n => by rw [State.channel_mapChannels, keeps]
  rw [State.mapChannels] at same ⊢
  dsimp only at same
  rw [same]

/-- A frame start with no channel HELD changes the frame alone (R79). -/
theorem State.startFrame_of_not_held {s : State} (free : ∀ n, (s.channel n).isHeld = false) :
    s.startFrame = { s with frameTime := 0 } := by
  rw [State.startFrame, State.mapChannels_self fun n => Channel.redrive_of_not_held (free n) _]

/-- The causes after a CONFIG_CLOCK, and CLEAR where it ends hold-down (R127, R138, R141): the CLOCK cause is present exactly while
the clock is LOST. -/
theorem State.leaveHold_if_lost {s set : State} (clock : s.causes.clock = true ↔ s.clock.state = .lost)
    (empty : set.waitList = []) (causes : set.causes = s.causes) :
    (if s.clock.state = .lost then set.leaveHold .clock else set) =
      { set with
        causes := ⟨s.causes.supply, false⟩
        deviceNotices :=
          if s.clock.state = .lost ∧ s.causes.supply = false then { set.deviceNotices with clear := true }
          else set.deviceNotices } := by
  by_cases lost : s.clock.state = .lost
  · rw [if_pos lost, State.leaveHold_clock (causes ▸ clock.2 lost) empty, causes]
    simp [lost]
  · have absent : s.causes.clock = false := Bool.eq_false_iff.2 fun present => lost (clock.1 present)
    have same : set.causes = ⟨s.causes.supply, false⟩ := by rw [causes, ← absent]
    simp [lost, ← same]

/-- The change of an accepted CONFIG_CLOCK, which finds no lease in force (R126, R127). -/
theorem State.configureClock_eq {s : State} (idle : s.anyInForce = false) (waits : s.WaitListLawful)
    (agree : s.HoldingsAgree) (clock : s.causes.clock = true ↔ s.clock.state = .lost)
    (sourceEdge rate silence frame settle : Byte) :
    s.configureClock sourceEdge rate silence frame settle =
      State.mapChannels
        { s with
          clock := s.clock.configure sourceEdge rate silence frame settle
          frameTime := 0
          causes := ⟨s.causes.supply, false⟩
          deviceNotices :=
            if s.clock.state = .lost ∧ s.causes.supply = false then { s.deviceNotices with clear := true }
            else s.deviceNotices }
        fun _ c => c.restartSettle := by
  have left := State.leaveHold_if_lost (set := { s with clock := s.clock.configure sourceEdge rate silence frame settle })
    clock (waits.waitList_eq_nil idle) rfl
  rw [State.configureClock, left, State.startFrame_of_not_held]
  exact agree.not_held idle

/-- Settles O55: an accepted CONFIG_CLOCK finds no lease in force, so that no channel is HELD and there is nothing to grant. -/
theorem configClockCompletes : Obligations.ConfigClockCompletes := by
  unfold Obligations.ConfigClockCompletes
  intro s st sourceEdge rate silence frame settle sound accepted
  obtain ⟨-, -, waits, agree, -, -, -, ⟨-, clock, -⟩, -⟩ := sound
  have passes := configClockChecks_pass accepted.2
  have idle : s.anyInForce = false := firstFailing_eq_none.1 passes (s.anyInForce, .inUse) (by simp [configClockChecks])
  have changed := State.configureClock_eq idle waits agree clock sourceEdge rate silence frame settle
  have answer : configClockEffect st sourceEdge rate silence frame settle (s.beginTake st) =
      ((s.configureClock sourceEdge rate silence frame settle).beginTake st, [0x00#8]) := by
    have passes : firstFailing (configClockChecks st sourceEdge rate silence frame settle (s.beginTake st)) = none := passes
    have begun := State.configureClock_eq (s := s.beginTake st) idle waits agree clock sourceEdge rate silence frame settle
    rw [configClockEffect, passes, begun, changed, ← State.mapChannels_beginTake]
    rfl
  refine ⟨s.configureClock sourceEdge rate silence frame settle, ?_, ?_, fun n => ?_, ?_, ?_, ?_, ?_, ?_, ?_, ?_,
    .of_beginTake accepted.1 rfl answer ?_⟩
  · rw [changed, State.mapChannels_clock, LeaseClock.configure_eq]
  · rw [changed, State.mapChannels_frameTime]
  · rw [changed, State.channel_mapChannels, Channel.restartSettle_eq]
    rfl
  · rw [changed, State.mapChannels_causes]
  · rw [changed, State.mapChannels_deviceNotices]
  · simp [SameLeases, changed]
  · rw [changed, State.mapChannels_stations]
  · rw [changed, State.mapChannels_supply]
  · simp [SameResets, changed]
  · simp [SameOutside, changed]
  · rw [changed, State.mapChannels_ports]

end Sys2Proof.Machine
end

section
/-! PROOFS. The stations: what ATTACH, DETACH, SET_MASK, POLL and CONFIG_STATION leave of them, and when a station's ATN# line is asserted. -/

namespace Sys2Proof.Machine

open Sys2Proof

/-! ## ATTACH -/

/-- The full mask in the terms of the claims (R106). -/
theorem fullMask_eq (st : Station) :
    fullMask st = ⟨⟨true, true, true⟩, ⟨decide (st = 0), decide (st = 0), decide (st = 0)⟩⟩ := by
  rw [fullMask, beq_eq_decide]

/-- Settles O29: the effect asks whether the station is attached, and sets its record where it is not. -/
theorem attachCompletes : Obligations.AttachCompletes := by
  unfold Obligations.AttachCompletes
  intro s st ready
  by_cases attached : (s.station st).attached = true
  · rw [if_pos attached]
    refine .of_beginTake ready rfl ?_ rfl
    have present : (s.beginTake st).detached st = false := by simp [State.detached, attached]
    rw [attachEffect, present]
    rfl
  · rw [if_neg attached, ← fullMask_eq]
    refine .of_beginTake ready rfl ?_ rfl
    have absent : (s.beginTake st).detached st = true := by simp [State.detached, attached]
    rw [attachEffect, absent]
    rfl

/-! ## DETACH -/

/-- The freeing of the slots with a property triggers grant evaluation where one of their leases is not LAPSED (R15). -/
theorem State.anyActive_slotHas (s : State) (p : Lease → Bool) :
    s.anyActive (s.slotHas p) = s.anyLease fun l => p l && !l.isLapsed := by
  refine congrArg (List.finRange 24).any (funext fun i => ?_)
  unfold State.slotHas
  cases s.leaseAt i <;> rfl

/-- The state that an accepted DETACH leaves: the station's slots are FREE and the station is detached (R107 steps 1 and 2). -/
def State.detach (s : State) (st : Station) : State :=
  (s.free (s.ownedBy st)).setStation st (s.station st).detach

/-- An accepted DETACH frees, detaches, and evaluates. -/
theorem detachEffect_accepted {s : State} {st : Station} (attached : s.detached st = false) :
    detachEffect st s =
      accept ((s.detach st).evaluateIf (s.anyActive (s.ownedBy st))) [byteOf (s.usedSlots st)] := by
  obtain ⟨⟨-, -, -, ⟨stations, -⟩, -⟩, -⟩ := s.free_spec (s.ownedBy st)
  have record : (s.free (s.ownedBy st)).station st = s.station st := by rw [State.station, stations, State.station]
  simp only [detachEffect, attached, record, Bool.false_eq_true, if_false]
  rfl

theorem State.setStation_beginTake (s : State) (st k : Station) (x : StationRec) :
    (s.beginTake st).setStation k x = (s.setStation k x).beginTake st := rfl

theorem State.detach_beginTake (s : State) (st k : Station) : (s.beginTake st).detach k = (s.detach k).beginTake st := by
  rw [State.detach, State.free_beginTake, State.setStation_beginTake]
  rfl

theorem State.detach_ports (s : State) (st : Station) : (s.detach st).ports = s.ports := by
  obtain ⟨⟨-, -, -, frame⟩, -⟩ := s.free_spec (s.ownedBy st)
  rw [State.detach, State.setStation_ports, frame.ports_eq]

/-- The evaluation that a DETACH triggers, in the terms of the claims (R15, R107). -/
theorem State.detach_evaluated (s : State) (st : Station) :
    (s.detach st).evaluateIf (s.anyActive (s.ownedBy st)) =
      if s.someLease (fun l => l.holder == st && !l.isLapsed) then (s.detach st).grantEvaluation else s.detach st := by
  rw [State.evaluateIf, State.ownedBy, State.anyActive_slotHas]
  exact if_congr (s.someLease_iff _).symm rfl rfl

/-- Settles O30: the freeing of the slots that the station holds, with the evaluation that they trigger. -/
theorem detachCompletes : Obligations.DetachCompletes := by
  unfold Obligations.DetachCompletes
  intro s st accepted
  obtain ⟨attached, -⟩ := firstRefusal_detached_of_none accepted.2
  have answer : detachEffect st (s.beginTake st) =
      (((s.detach st).evaluateIf (s.anyActive (s.ownedBy st))).beginTake st, [0x00#8, byteOf (s.usedSlots st)]) := by
    have attached : (s.beginTake st).detached st = false := attached
    rw [detachEffect_accepted attached, State.detach_beginTake, State.evaluateIf_beginTake]
    rfl
  refine ⟨s.free (s.ownedBy st), s.free_spec _, ?_⟩
  intro gone
  have left : gone = s.detach st := rfl
  rw [left, ← State.detach_evaluated, ← State.countLeases_eq]
  exact .of_beginTake accepted.1 rfl answer ((State.evaluateIf_frame _ _).ports_eq.trans (s.detach_ports st))

/-! ## SET_MASK -/

/-- An accepted SET_MASK passes the model's own checks (R109). -/
theorem setMaskChecks_pass {s : State} {st : Station} {mask : Byte}
    (passes : firstRefusal (s.refusals (.setMask st mask)) = none) : firstFailing (setMaskChecks st mask s) = none := by
  have same : s.refusals (.setMask st mask) = (setMaskChecks st mask s).map tabled := by
    simp only [State.refusals, State.decide_someLease]; rfl
  rwa [same, firstRefusal_tabled, Option.map_eq_none_iff] at passes

/-- Settles O31: the mask is the model's own reading of the mask byte. -/
theorem setMaskCompletes : Obligations.SetMaskCompletes := by
  unfold Obligations.SetMaskCompletes
  intro s st mask accepted
  refine .of_beginTake accepted.1 rfl ?_ rfl
  have passes : firstFailing (setMaskChecks st mask (s.beginTake st)) = none := setMaskChecks_pass accepted.2
  rw [setMaskEffect, passes]
  rfl

/-! ## CONFIG_STATION -/

/-- An accepted CONFIG_STATION passes the model's own checks of its target, and its quota is in range (R110). -/
theorem configStationChecks_pass {s : State} {st : Station} {station cls quota : Byte} {target : Station} {c : Fin 4}
    (named : stationOf? station = some target) (classNumber : cls.toNat = c.val)
    (passes : firstRefusal (s.refusals (.configStation st station cls quota)) = none) :
    firstFailing (s.supervisorChecks st) = none ∧ ¬ (quota.toNat < 1 ∨ 24 < quota.toNat) ∧
      firstFailing (configStationChecks target c quota.toNat s) = none := by
  obtain ⟨supervisor, rest⟩ := firstRefusal_supervisor_of_none passes
  simp only [firstRefusal_eq_none, List.mem_cons, List.not_mem_nil, or_false, forall_eq_or_imp, forall_eq,
    decide_eq_false_iff_not] at rest
  obtain ⟨range, classKept, quotaSuffices⟩ := rest
  refine ⟨supervisor, by omega, firstFailing_eq_none.2 ?_⟩
  have classes : (∃ t ∈ stationOf? station, (s.station t).cls.val ≠ cls.toNat ∧ (s.station t).attached = true) ↔
      c ≠ (s.station target).cls ∧ (s.station target).attached = true := by
    simp [named, classNumber, Fin.val_inj, eq_comm (a := c)]
  have counts : (∃ t ∈ stationOf? station, quota.toNat < s.usedSlots t) ↔ quota.toNat < s.usedSlots target := by simp [named]
  rw [classes, not_and, Bool.not_eq_true] at classKept
  rw [counts] at quotaSuffices
  simpa [configStationChecks] using And.intro classKept quotaSuffices

/-- Settles O33: the operands name the target and its class, and every check passes. -/
theorem configStationCompletes : Obligations.ConfigStationCompletes := by
  unfold Obligations.ConfigStationCompletes
  intro s st station cls quota target c accepted number classNumber
  have named := stationOf?_eq_some.2 number
  obtain ⟨supervisor, range, passes⟩ := configStationChecks_pass named classNumber accepted.2
  refine .of_beginTake accepted.1 rfl ?_ rfl
  have supervisor : firstFailing ((s.beginTake st).supervisorChecks st) = none := supervisor
  have passes : firstFailing (configStationChecks target c quota.toNat (s.beginTake st)) = none := passes
  simp only [configStationEffect, supervisor, named, indexOf4?_eq_some.2 classNumber, range, passes, if_false]
  rfl

/-! ## POLL -/

/-- A device notice set as its bits add up (R169). -/
theorem DeviceNotices.toByte_eq (n : DeviceNotices) :
    n.toByte = BitVec.ofNat 8 ((if n.fault then 8 else 0) + (if n.hold then 16 else 0) + if n.clear then 32 else 0) := by
  obtain ⟨fault, hold, clear⟩ := n
  revert fault hold clear
  decide

/-- A lease notice set with no notice is the empty set. -/
theorem LeaseNotices.isEmpty_eq (n : LeaseNotices) : n.isEmpty = (n == ⟨false, false, false⟩) := by
  obtain ⟨granted, warning, lapsed⟩ := n
  revert granted warning lapsed
  decide

theorem State.slot_clearNotices (s : State) (st : Station) (i : SlotNo) :
    (s.clearNotices st).slot i =
      if s.ownedBy st i then
        { s.slot i with lease := (s.slot i).lease.map fun l => { l with notices := .empty } }
      else s.slot i := by
  simp only [State.clearNotices, State.slot, State.mapSlots, Fin.getElem_fin, Vector.getElem_ofFn, Fin.eta]

/-- The notices of the station's leases go and those of the others stay (R114). -/
theorem State.leaseAt_clearNotices (s : State) (st : Station) (i : SlotNo) :
    (s.clearNotices st).leaseAt i = (s.leaseAt i).map fun l =>
      if l.holder = st then { l with notices := ⟨false, false, false⟩ } else l := by
  rw [State.leaseAt, State.slot_clearNotices, State.ownedBy]
  cases hl : s.leaseAt i with
  | none =>
    have slot : (s.slot i).lease = none := hl
    simp [State.slotHas, hl, slot]
  | some l =>
    have slot : (s.slot i).lease = some l := hl
    simp only [State.slotHas, hl, beq_iff_eq, Option.map_some]
    split <;> simp [slot, LeaseNotices.empty]

/-- A POLL clears notices and touches nothing else. -/
theorem State.clearNotices_frame (s : State) (st : Station) :
    (s.clearNotices st).waitList = s.waitList ∧ SameChannels s (s.clearNotices st) ∧
      (s.clearNotices st).stations = s.stations ∧ SameClock s (s.clearNotices st) ∧ SameSupply s (s.clearNotices st) ∧
      SameResets s (s.clearNotices st) ∧ SameOutside s (s.clearNotices st) := by
  simp [State.clearNotices, SameChannels, SameClock, SameSupply, SameResets, SameOutside]

theorem State.clearNotices_ports (s : State) (st : Station) : (s.clearNotices st).ports = s.ports := by
  rw [State.clearNotices, State.mapSlots_ports]

theorem State.clearNotices_beginTake (s : State) (st k : Station) :
    (s.beginTake st).clearNotices k = (s.clearNotices k).beginTake st := by
  have owned : (s.beginTake st).ownedBy k = s.ownedBy k := rfl
  rw [State.clearNotices, owned, State.mapSlots_beginTake, State.clearNotices]
  simp only [State.beginTake, State.setPort, State.port, State.mapSlots]

/-- The device notices that a POLL reports, as their bits add up (R114, R169). -/
theorem State.deviceNoticesOf_toByte (s : State) (st : Station) :
    (s.deviceNoticesOf st).toByte =
      if st = 0 then
        BitVec.ofNat 8 ((if s.deviceNotices.fault then 8 else 0) + (if s.deviceNotices.hold then 16 else 0) +
          if s.deviceNotices.clear then 32 else 0)
      else 0x00#8 := by
  rw [State.deviceNoticesOf]
  split
  · exact DeviceNotices.toByte_eq _
  · rfl

/-- How many leases of the station have a notice (R114). -/
theorem State.noticedSlots_length (s : State) (st : Station) :
    (s.noticedSlots st).length = (List.finRange 24).countP fun i =>
      (s.leaseAt i).any fun l => l.holder == st && l.notices != ⟨false, false, false⟩ := by
  rw [State.noticedSlots, ← List.countP_eq_length_filter, ← State.countLeases_eq]
  simp only [LeaseNotices.isEmpty_eq]
  rfl

/-- The entry of a slot in the reply of POLL (R114, R168). -/
theorem State.pollEntry_eq {s : State} {i : SlotNo} {l : Lease} (hl : s.leaseAt i = some l) :
    s.pollEntry i =
      [BitVec.ofNat 8 (8 * i.val + (s.slot i).gen.val),
        BitVec.ofNat 8 ((if l.notices.granted then 1 else 0) + (if l.notices.warning then 2 else 0) +
          if l.notices.lapsed then 4 else 0),
        l.state.causeByte] := by
  rw [State.pollEntry, hl, ← State.handleAt_toByte, ← LeaseNotices.toByte_eq]

/-- Settles O32: the notices that the reply collects are those that are cleared. -/
theorem pollCompletes : Obligations.PollCompletes := by
  unfold Obligations.PollCompletes
  intro s st accepted
  obtain ⟨attached, -⟩ := firstRefusal_detached_of_none accepted.2
  obtain ⟨waitList, channels, stations, clock, supply, resets, outside⟩ := s.clearNotices_frame st
  have answer : pollEffect st (s.beginTake st) = ((s.clearNotices st).beginTake st,
      0x00#8 :: (s.deviceNoticesOf st).toByte :: BitVec.ofNat 8 (s.noticedSlots st).length ::
        (s.noticedSlots st).flatMap s.pollEntry) := by
    have attached : (s.beginTake st).detached st = false := attached
    rw [pollEffect, attached, State.clearNotices_beginTake]
    rfl
  rw [State.deviceNoticesOf_toByte, State.noticedSlots_length, State.noticedSlots, flatMap_filter_eq] at answer
  refine ⟨s.clearNotices st, fun i => ⟨?_, s.leaseAt_clearNotices st i⟩, rfl, waitList, channels, stations, clock, supply,
    resets, outside, .of_beginTake accepted.1 rfl (answer.trans ?_) (s.clearNotices_ports st)⟩
  · rw [State.slot_clearNotices]
    split <;> rfl
  · refine Prod.ext rfl (congrArg (0x00#8 :: _ :: _ :: ·) (congrArg (List.flatMap · _) (funext fun i => ?_)))
    rw [State.slotHas]
    cases hl : s.leaseAt i with
    | none => rfl
    | some l =>
      refine if_congr (by simp [LeaseNotices.isEmpty_eq]) ?_ rfl
      rw [State.pollEntry_eq hl]
      cases l.state <;> rfl

/-! ## ATN# -/

theorem LeaseNotices.meets_iff (notices mask : LeaseNotices) :
    notices.meets mask = true ↔
      (notices.granted = true ∧ mask.granted = true) ∨ (notices.warning = true ∧ mask.warning = true) ∨
        (notices.lapsed = true ∧ mask.lapsed = true) := by
  simp [LeaseNotices.meets, or_assoc]

theorem DeviceNotices.meets_iff (notices mask : DeviceNotices) :
    notices.meets mask = true ↔
      (notices.fault = true ∧ mask.fault = true) ∨ (notices.hold = true ∧ mask.hold = true) ∨
        (notices.clear = true ∧ mask.clear = true) := by
  simp [DeviceNotices.meets, or_assoc]

/-- Settles O34: the line is the condition of the station's notices, which the masks say kind by kind. -/
theorem atnFollowsNotices : Obligations.AtnFollowsNotices := by
  unfold Obligations.AtnFollowsNotices
  intro s st
  rw [State.atnAsserted, State.atnCondition, Bool.and_eq_true, Bool.not_eq_true', Bool.and_eq_true, Bool.or_eq_true,
    ← State.someLease_iff, Bool.and_eq_true, beq_iff_eq, DeviceNotices.meets_iff]
  simp only [State.someLease, Option.mem_def, Bool.and_eq_true, beq_iff_eq, LeaseNotices.meets_iff]

end Sys2Proof.Machine
end

section
/-! PROOFS. The edges and the silence of the lease clock, with the entry and the leaving of a hold-down cause. -/

namespace Sys2Proof.Machine

open Sys2Proof

/-! ## A hold-down cause enters or leaves, in the terms of the claims -/

theorem HoldCauses.isEmpty_iff {c : HoldCauses} : c.isEmpty = true ↔ c = ⟨false, false⟩ := by
  obtain ⟨supply, clock⟩ := c
  simp [HoldCauses.isEmpty]

/-- A cause that enters (R138, R139). -/
theorem State.enterHold_holdEntryOf (s : State) (k : HoldCause) :
    HoldEntryOf s (s.enterHold k) (s.causes.put k true) k.lapseCause := by
  refine ⟨fun empty => ?_, fun held => ?_⟩
  · have spec := s.lapse_spec (s.slotHas Lease.isHeld) k.lapseCause
    have ⟨⟨_, _, _, ⟨_, notices⟩, _⟩, _⟩ := spec
    exact ⟨_, spec, by rw [State.enterHold_first k (HoldCauses.isEmpty_iff.2 empty), notices]⟩
  · exact State.enterHold_joins k (Bool.eq_false_iff.2 (mt HoldCauses.isEmpty_iff.1 held))

/-- A cause that leaves a set in which some cause is present (R138, R141). -/
theorem State.leaveHold_causesAre {s : State} (k : HoldCause) (held : s.causes.isEmpty = false) :
    s.leaveHold k = causesAre s (s.causes.put k false) := by
  unfold causesAre
  split
  · next last => exact State.leaveHold_last k held (HoldCauses.isEmpty_iff.2 last)
  · next stays => exact State.leaveHold_stays k (Bool.eq_false_iff.2 (mt HoldCauses.isEmpty_iff.1 stays))

/-! ## The qualifying edge -/

theorem edgeLevel_eq (edge : Edge) : edgeLevel edge = if edge = .rising then .high else .low := by
  cases edge <;> rfl

theorem LeaseClock.qualifies_iff {c : LeaseClock} {edge : Edge} :
    c.qualifies edge = true ↔ c.source = .external ∧ c.edge = edge := by
  simp [LeaseClock.qualifies]

/-- What a restart leaves of the silence timer with source EXTERNAL (R120, R123). -/
theorem LeaseClock.restartedSilence_external {c : LeaseClock} (external : c.source = .external) :
    c.restartedSilence = if c.silenceLimit = 0 then none else some 0 := by
  rw [LeaseClock.restartedSilence, external]

/-- An edge that does not qualify moves the pin alone (R119, R120). -/
theorem exec_qualifyingEdge_ignored {s : State} {edge : Edge} (outside : s.resetCtl.active = false)
    (ignored : ¬ (s.clock.source = .external ∧ s.clock.edge = edge)) :
    exec (.qualifyingEdge edge) s = .next { s with tickPin := edgeLevel edge } := by
  simp [exec, execQualifyingEdge, outside, mt LeaseClock.qualifies_iff.1 ignored]

/-- An edge that qualifies moves the pin and is taken (R120, R124). -/
theorem exec_qualifyingEdge_taken {s : State} {edge : Edge} (outside : s.resetCtl.active = false)
    (external : s.clock.source = .external) (polarity : s.clock.edge = edge) :
    exec (.qualifyingEdge edge) s = .next (State.takeEdge { s with tickPin := edgeLevel edge }) := by
  simp [exec, execQualifyingEdge, outside, LeaseClock.qualifies_iff.2 ⟨external, polarity⟩]

/-- An edge short of the divisor is counted (R120). -/
theorem State.takeEdge_counted {s : State} (running : s.clock.state = .running)
    (short : s.clock.prescale + 1 ≠ tickDivisor s.clock.divisorIndex) :
    s.takeEdge =
      { s with
        clock := { s.clock with silenceTimer := s.clock.restartedSilence, prescale := s.clock.prescale + 1 } } := by
  simp only [State.takeEdge, running, State.countEdge, short, if_false]

/-- The edge that reaches the divisor brings a lease tick (R120). -/
theorem State.takeEdge_ticks {s : State} (running : s.clock.state = .running)
    (full : s.clock.prescale + 1 = tickDivisor s.clock.divisorIndex) :
    s.takeEdge =
      State.leaseTick
        { s with clock := { s.clock with silenceTimer := s.clock.restartedSilence, prescale := 0 } } := by
  simp only [State.takeEdge, running, State.countEdge, full, if_true]

/-- The first edge of a LOST clock brings it back, and the CLOCK cause leaves (R124). -/
theorem State.takeEdge_recovers {s : State} (lost : s.clock.state = .lost) (present : s.causes.clock = true) :
    s.takeEdge =
      causesAre
        { s with
          clock := { s.clock with state := .running, prescale := 0, silenceTimer := s.clock.restartedSilence } }
        ⟨s.causes.supply, false⟩ := by
  have held : s.causes.isEmpty = false := by simp [HoldCauses.isEmpty, present]
  rw [State.takeEdge, lost]
  exact State.leaveHold_causesAre .clock held

/-- Settles O53: the edge is the pin's movement, and where it qualifies a count, a lease tick, or the CLOCK cause leaving. -/
theorem qualifyingEdgeCompletes : Obligations.QualifyingEdgeCompletes := by
  unfold Obligations.QualifyingEdgeCompletes
  intro s edge outside
  dsimp only
  rw [← edgeLevel_eq]
  refine ⟨exec_qualifyingEdge_ignored outside, fun external polarity => ?_⟩
  rw [exec_qualifyingEdge_taken outside external polarity, ← LeaseClock.restartedSilence_external external]
  exact
    ⟨fun running short => congrArg Host.Outcome.next (State.takeEdge_counted running short),
      fun running full =>
        ⟨_, congrArg Host.Outcome.next (State.takeEdge_ticks running full), State.leaseTick_tickOf _⟩,
      fun lost present => congrArg Host.Outcome.next (State.takeEdge_recovers lost present)⟩

/-! ## The silence expiry -/

/-- Settles O54: a running timer's expiry is the entry of the CLOCK cause on the state with the clock LOST. -/
theorem silenceExpiryCompletes : Obligations.SilenceExpiryCompletes := by
  unfold Obligations.SilenceExpiryCompletes
  intro s outside
  have taken : exec .silenceExpiry s = .next s.silenceExpiry := by
    simp only [exec, execSilenceExpiry, outside, Bool.false_eq_true, if_false]
  rw [taken]
  unfold State.silenceExpiry
  cases s.clock.silenceTimer with
  | none => exact ⟨fun runs => absurd rfl runs, fun _ => rfl⟩
  | some time => exact ⟨fun _ => ⟨_, rfl, State.enterHold_holdEntryOf _ .clock⟩, fun stopped => nomatch stopped⟩

end Sys2Proof.Machine
end

section
/-! PROOFS. Every step keeps the agreement of the hold-down causes with the supply monitor and the lease clock, and the ranges of
the clock: the laws of the clock and of the monitor, each by itself, and the set of causes that their states call for. -/

namespace Sys2Proof.Machine

open Sys2Proof

/-! ## The laws of the lease clock by itself -/

/-- What the laws say of the lease clock alone (R118, R120, R123): where it can be LOST, where its silence timer runs, and the ranges
of its settings and of its prescale count. -/
structure LeaseClock.Lawful (c : LeaseClock) : Prop where
  lost : c.state = .lost → c.source = .external ∧ c.silenceLimit ≠ 0
  timer : c.silenceTimer ≠ none ↔ c.source = .external ∧ c.silenceLimit ≠ 0 ∧ c.state = .running
  settle : 1 ≤ c.settleMs ∧ c.settleMs ≤ 15
  limit : c.silenceLimit ≤ 255
  internal : c.source = .internal → c.silenceLimit = 0
  prescale : c.source = .external → c.prescale < tickDivisor c.divisorIndex

theorem tickDivisor_pos : ∀ index : Fin 3, 0 < tickDivisor index := by decide

theorem advanceTimer_ne_none {t : Option Nat} : advanceTimer t ≠ none ↔ t ≠ none := by simp [advanceTimer]

/-- A restart leaves the silence timer running exactly with source EXTERNAL and a limit other than 0 (R120, R123, R127). -/
theorem LeaseClock.restartedSilence_ne_none {c : LeaseClock} :
    c.restartedSilence ≠ none ↔ c.source = .external ∧ c.silenceLimit ≠ 0 := by
  unfold LeaseClock.restartedSilence
  cases c.source <;> simp

/-- A RUNNING clock whose silence timer is as a restart leaves it agrees with its timer, so that only its ranges are in question. -/
theorem LeaseClock.Lawful.of_restarted {c : LeaseClock} (running : c.state = .running)
    (timer : c.silenceTimer = c.restartedSilence) (settle : 1 ≤ c.settleMs ∧ c.settleMs ≤ 15) (limit : c.silenceLimit ≤ 255)
    (internal : c.source = .internal → c.silenceLimit = 0)
    (prescale : c.source = .external → c.prescale < tickDivisor c.divisorIndex) : c.Lawful where
  lost lost := absurd (running.symm.trans lost) (by decide)
  timer := by rw [timer, LeaseClock.restartedSilence_ne_none]; simp only [running, and_true]
  settle := settle
  limit := limit
  internal := internal
  prescale := prescale

theorem LeaseClock.Lawful.advance {c : LeaseClock} (h : c.Lawful) : c.advance.Lawful where
  __ := h

theorem LeaseClock.Lawful.restartPrescale {c : LeaseClock} (h : c.Lawful) : LeaseClock.Lawful { c with prescale := 0 } where
  __ := h
  prescale _ := tickDivisor_pos _

theorem LeaseClock.Lawful.passTime {c : LeaseClock} (h : c.Lawful) : c.passTime.Lawful where
  __ := h
  timer := advanceTimer_ne_none.trans h.timer
  prescale external := by
    have source : c.source = .external := external
    have kept : c.passTime.prescale = c.prescale := by simp [LeaseClock.passTime, source]
    rw [kept]
    exact h.prescale source

/-- A qualifying edge of a RUNNING clock restarts its silence timer (R120). -/
theorem LeaseClock.Lawful.counted {c : LeaseClock} (h : c.Lawful) (running : c.state = .running) {prescale : Nat}
    (range : prescale < tickDivisor c.divisorIndex) :
    LeaseClock.Lawful { c with silenceTimer := c.restartedSilence, prescale := prescale } :=
  .of_restarted running rfl h.settle h.limit h.internal fun _ => range

/-- A qualifying edge of a LOST clock brings it back with nothing counted (R124). -/
theorem LeaseClock.Lawful.recovered {c : LeaseClock} (h : c.Lawful) :
    LeaseClock.Lawful { c with state := .running, prescale := 0, silenceTimer := c.restartedSilence } :=
  .of_restarted rfl rfl h.settle h.limit h.internal fun _ => tickDivisor_pos _

/-- A clock whose silence timer has run is one that can be LOST (R123). -/
theorem LeaseClock.Lawful.lose {c : LeaseClock} (h : c.Lawful) (runs : c.silenceTimer ≠ none) :
    LeaseClock.Lawful { c with state := .lost, silenceTimer := none } where
  __ := h
  lost _ := ⟨(h.timer.1 runs).1, (h.timer.1 runs).2.1⟩
  timer := by simp

/-- The settings of a CONFIG_CLOCK that passes its argument checks are in range, whatever the clock before it (R126, R127). -/
theorem LeaseClock.configure_lawful {sourceEdge rate silence frame settle : Byte}
    (accepted : configClockBadArg sourceEdge rate silence frame settle = false) (c : LeaseClock) :
    (c.configure sourceEdge rate silence frame settle).Lawful := by
  simp only [configClockBadArg, Bool.or_eq_false_iff, decide_eq_false_iff_not] at accepted
  obtain ⟨⟨⟨-, sourced⟩, -⟩, settled⟩ := accepted
  refine .of_restarted rfl rfl ?_ (Nat.le_of_lt_succ silence.isLt) (fun internal => ?_) fun _ => tickDivisor_pos _
  · show 1 ≤ settle.toNat ∧ settle.toNat ≤ 15
    omega
  · have source : clockSourceOf sourceEdge = .internal := internal
    show silence.toNat = 0
    exact not_not.1 (of_decide_eq_false (Bool.or_eq_false_iff.1 (source ▸ sourced)).2)

/-! ## The supply monitor by itself -/

/-- The recovery timer runs exactly while the monitor is RECOVERING (R129). -/
def SupplyMonitor.Lawful (m : SupplyMonitor) : Prop := m.recoveryTimer ≠ none ↔ m.state = .recovering

theorem SupplyMonitor.Lawful.advance {m : SupplyMonitor} (h : m.Lawful) : m.advance.Lawful := advanceTimer_ne_none.trans h

theorem SupplyMonitor.Lawful.rise {m : SupplyMonitor} (h : m.Lawful) : m.rise.Lawful := by
  unfold SupplyMonitor.rise
  split
  · simp [SupplyMonitor.Lawful]
  · exact h
  · exact h

/-- A rise leaves NORMAL where it is, and comes to it from nowhere (R131). -/
theorem SupplyMonitor.rise_normal (m : SupplyMonitor) : m.rise.state = .normal ↔ m.state = .normal := by
  unfold SupplyMonitor.rise
  split
  · next low => simp [low]
  · rfl
  · rfl

/-- A movement of the supply, as the filter sees it, changes the filter alone (R130). -/
theorem SupplyMonitor.filterSees_kept (old new : Nat) (m : SupplyMonitor) :
    (m.filterSees old new).state = m.state ∧ (m.filterSees old new).recoveryTimer = m.recoveryTimer := by
  unfold SupplyMonitor.filterSees
  repeat' split
  all_goals exact ⟨rfl, rfl⟩

/-! ## The causes -/

/-- The hold-down causes that a supply monitor and a lease clock call for (R118, R129, R138). -/
def causesOf (m : SupplyMonitor) (c : LeaseClock) : HoldCauses := ⟨decide (m.state ≠ .normal), decide (c.state = .lost)⟩

/-- The laws of the lease clock and of the supply monitor, with the causes present that they call for. -/
structure State.ClockSupplyLawful (s : State) : Prop where
  clock : s.clock.Lawful
  supply : s.supply.Lawful
  causes : s.causes = causesOf s.supply s.clock
  restarts : s.restartCount ≤ 255

theorem eq_causesOf {causes : HoldCauses} {m : SupplyMonitor} {c : LeaseClock} :
    causes = causesOf m c ↔ (causes.supply = true ↔ m.state ≠ .normal) ∧ (causes.clock = true ↔ c.state = .lost) := by
  obtain ⟨supply, clock⟩ := causes
  rw [causesOf, HoldCauses.mk.injEq]
  exact and_congr (by rw [Bool.eq_iff_iff, decide_eq_true_eq]) (by rw [Bool.eq_iff_iff, decide_eq_true_eq])

theorem State.clockSupplyLawful_iff {s : State} : s.ClockSupplyLawful ↔ s.CausesLawful ∧ s.RangesLawful := by
  constructor
  · rintro ⟨clock, supply, agree, restarts⟩
    obtain ⟨forSupply, forClock⟩ := eq_causesOf.1 agree
    exact ⟨⟨forSupply, forClock, clock.lost, supply, clock.timer⟩,
      clock.settle, clock.limit, restarts, clock.internal, clock.prescale⟩
  · rintro ⟨⟨forSupply, forClock, lost, supply, timer⟩, settle, limit, restarts, internal, prescale⟩
    exact ⟨⟨lost, timer, settle, limit, internal, prescale⟩, supply, eq_causesOf.2 ⟨forSupply, forClock⟩, restarts⟩

/-! ## What the laws rest on -/

/-- The lease clock, the supply monitor, the causes and the restart count are unchanged. -/
structure SameTimed (s t : State) : Prop where
  clock : t.clock = s.clock
  supply : t.supply = s.supply
  causes : t.causes = s.causes
  restarts : t.restartCount = s.restartCount

@[refl] theorem SameTimed.refl (s : State) : SameTimed s s := ⟨rfl, rfl, rfl, rfl⟩

@[trans] theorem SameTimed.trans {s t u : State} (h : SameTimed s t) (k : SameTimed t u) : SameTimed s u :=
  ⟨k.clock.trans h.clock, k.supply.trans h.supply, k.causes.trans h.causes, k.restarts.trans h.restarts⟩

theorem SameBesideTables.sameTimed {s t : State} (h : SameBesideTables s t) : SameTimed s t := by
  obtain ⟨-, ⟨clock, -⟩, ⟨supply, causes⟩, ⟨-, -, restarts⟩, -⟩ := h
  exact ⟨clock, supply, causes, restarts⟩

theorem SameBesidePorts.sameTimed {s t : State} (h : SameBesidePorts s t) : SameTimed s t := by
  obtain ⟨-, -, -, ⟨clock, -⟩, ⟨supply, causes⟩, ⟨-, -, restarts⟩, -⟩ := h
  exact ⟨clock, supply, causes, restarts⟩

theorem State.Checks.sameTimed {s t : State} (h : s.Checks t) : SameTimed s t := ⟨h.clock, h.supply, h.causes, h.restarts⟩

theorem State.ClockSupplyLawful.of_same {s t : State} (h : s.ClockSupplyLawful) (same : SameTimed s t) :
    t.ClockSupplyLawful := by
  obtain ⟨clock, supply, causes, restarts⟩ := same
  refine ⟨?_, ?_, ?_, ?_⟩
  · rw [clock]; exact h.clock
  · rw [supply]; exact h.supply
  · rw [causes, supply, clock]; exact h.causes
  · rw [restarts]; exact h.restarts

theorem State.setSlot_sameTimed (s : State) (i : SlotNo) (x : Slot) : SameTimed s (s.setSlot i x) := ⟨rfl, rfl, rfl, rfl⟩

theorem State.setChannel_sameTimed (s : State) (n : ChannelNo) (x : Channel) : SameTimed s (s.setChannel n x) :=
  ⟨rfl, rfl, rfl, rfl⟩

theorem State.setStation_sameTimed (s : State) (st : Station) (x : StationRec) : SameTimed s (s.setStation st x) :=
  ⟨rfl, rfl, rfl, rfl⟩

theorem State.setPort_sameTimed (s : State) (p : Station) (x : Port) : SameTimed s (s.setPort p x) := ⟨rfl, rfl, rfl, rfl⟩

theorem State.lapse_sameTimed (s : State) (p : SlotNo → Bool) (cause : LapseCause) : SameTimed s (s.lapse p cause) :=
  (State.Checks.lapse s p cause).sameTimed

theorem State.free_sameTimed (s : State) (p : SlotNo → Bool) : SameTimed s (s.free p) := by
  obtain ⟨⟨-, -, -, frame⟩, -⟩ := s.free_spec p
  exact frame.sameTimed

theorem State.makeHeld_sameTimed (s : State) (i : SlotNo) : SameTimed s (s.makeHeld i) := (s.makeHeld_frame i).2.sameTimed

theorem State.grantEvaluation_sameTimed (s : State) : SameTimed s s.grantEvaluation := s.grantEvaluation_frame.sameTimed

theorem State.evaluateIf_sameTimed (s : State) (triggered : Bool) : SameTimed s (s.evaluateIf triggered) :=
  (s.evaluateIf_frame triggered).sameTimed

theorem State.mapSlots_sameTimed (s : State) (f : SlotNo → Slot → Slot) : SameTimed s (s.mapSlots f) :=
  (s.mapSlots_frame f).2.2.sameTimed

theorem State.mapChannels_sameTimed (s : State) (f : ChannelNo → Channel → Channel) : SameTimed s (s.mapChannels f) :=
  ⟨s.mapChannels_clock f, s.mapChannels_supply f, s.mapChannels_causes f, s.mapChannels_restartCount f⟩

theorem State.startFrame_sameTimed (s : State) : SameTimed s s.startFrame := by
  have redriven := s.mapChannels_sameTimed fun _ c => c.redrive HeldUse.startFrame
  unfold State.startFrame
  exact ⟨by simp only [redriven.clock], by simp only [redriven.supply], by simp only [redriven.causes],
    by simp only [redriven.restarts]⟩

theorem State.settleEnd_sameTimed (s : State) (n : ChannelNo) : SameTimed s (s.settleEnd n) := s.setChannel_sameTimed n _

theorem State.raiseFault_sameTimed (s : State) : SameTimed s s.raiseFault := ⟨rfl, rfl, rfl, rfl⟩

theorem State.clearFault_sameTimed (s : State) (n : ChannelNo) : SameTimed s (s.clearFault n) := by
  unfold State.clearFault
  split
  · exact (s.setChannel_sameTimed n _).trans (State.grantEvaluation_sameTimed _)
  · exact .refl s

theorem State.senseFault_sameTimed (s : State) (n : ChannelNo) : SameTimed s (s.senseFault n) := by
  have faulted := s.setChannel_sameTimed n (s.channel n).fault
  unfold State.senseFault State.takeFault
  split
  · split
    · exact faulted.trans ((State.lapse_sameTimed _ _ .fault).trans
        ((State.raiseFault_sameTimed _).trans (State.grantEvaluation_sameTimed _)))
    · exact faulted.trans (State.raiseFault_sameTimed _)
    · exact .refl s
  · exact .refl s

/-! ## The events -/

/-- The leases count and expire beside the laws; a lease tick moves the tick counter alone (R121). -/
theorem State.ClockSupplyLawful.leaseTick {s : State} (h : s.ClockSupplyLawful) : s.leaseTick.ClockSupplyLawful :=
  State.ClockSupplyLawful.of_same (s := { s with clock := s.clock.advance })
    ⟨h.clock.advance, h.supply, h.causes, h.restarts⟩ (State.Checks.leaseTick s).sameTimed

/-- A cause that enters is in the set, whatever lapses with it (R138). -/
theorem State.ClockSupplyLawful.enterHold {s : State} {k : HoldCause} (clock : s.clock.Lawful) (supply : s.supply.Lawful)
    (restarts : s.restartCount ≤ 255) (enters : s.causes.put k true = causesOf s.supply s.clock) :
    (s.enterHold k).ClockSupplyLawful :=
  State.ClockSupplyLawful.of_same (s := { s with causes := s.causes.put k true }) ⟨clock, supply, enters, restarts⟩
    (State.Checks.enterHold s k).sameTimed

/-- A cause that leaves is out of the set, whatever is granted with it (R138). -/
theorem State.ClockSupplyLawful.leaveHold {s : State} {k : HoldCause} (clock : s.clock.Lawful) (supply : s.supply.Lawful)
    (restarts : s.restartCount ≤ 255) (leaves : s.causes.put k false = causesOf s.supply s.clock) :
    (s.leaveHold k).ClockSupplyLawful :=
  State.ClockSupplyLawful.of_same (s := { s with causes := s.causes.put k false }) ⟨clock, supply, leaves, restarts⟩
    (State.Checks.leaveHold s k).sameTimed

theorem State.ClockSupplyLawful.internalTick {s : State} (h : s.ClockSupplyLawful) : s.internalTick.ClockSupplyLawful := by
  unfold State.internalTick
  split
  · refine State.ClockSupplyLawful.leaseTick ?_
    exact ⟨h.clock.restartPrescale, h.supply, h.causes, h.restarts⟩
  · exact h

/-- A qualifying edge (R120, R124): short of the divisor the prescale count stays below it, and a LOST clock takes its cause with
it. -/
theorem State.ClockSupplyLawful.takeEdge {s : State} (h : s.ClockSupplyLawful) (external : s.clock.source = .external) :
    s.takeEdge.ClockSupplyLawful := by
  have below := h.clock.prescale external
  cases state : s.clock.state with
  | running =>
    by_cases full : s.clock.prescale + 1 = tickDivisor s.clock.divisorIndex
    · rw [State.takeEdge_ticks state full]
      refine State.ClockSupplyLawful.leaseTick ?_
      exact ⟨h.clock.counted state (tickDivisor_pos _), h.supply, h.causes, h.restarts⟩
    · rw [State.takeEdge_counted state full]
      exact ⟨h.clock.counted state (by omega), h.supply, h.causes, h.restarts⟩
  | lost =>
    rw [State.takeEdge, state]
    refine State.ClockSupplyLawful.leaveHold h.clock.recovered h.supply h.restarts ?_
    simp [h.causes, causesOf, HoldCauses.put]

theorem State.ClockSupplyLawful.silenceExpiry {s : State} (h : s.ClockSupplyLawful) : s.silenceExpiry.ClockSupplyLawful := by
  unfold State.silenceExpiry
  split
  · exact h
  · next runs =>
    refine State.ClockSupplyLawful.enterHold (h.clock.lose (by simp [runs])) h.supply h.restarts ?_
    simp [h.causes, causesOf, HoldCauses.put]

theorem State.ClockSupplyLawful.supplyLow {s : State} (h : s.ClockSupplyLawful) : s.supplyLow.ClockSupplyLawful := by
  have low : SupplyMonitor.Lawful { s.supply with state := .low, recoveryTimer := none, filter := none } := by
    simp [SupplyMonitor.Lawful]
  unfold State.supplyLow
  split
  · exact h
  · dsimp only
    split
    · refine State.ClockSupplyLawful.enterHold h.clock low h.restarts ?_
      simp [h.causes, causesOf, HoldCauses.put]
    · next state => exact ⟨h.clock, low, by simp [h.causes, causesOf, state], h.restarts⟩
    · next state => exact ⟨h.clock, low, by simp [h.causes, causesOf, state], h.restarts⟩

theorem State.ClockSupplyLawful.recoveryExpiry {s : State} (h : s.ClockSupplyLawful) : s.recoveryExpiry.ClockSupplyLawful := by
  unfold State.recoveryExpiry
  split
  · refine State.ClockSupplyLawful.leaveHold h.clock ?_ h.restarts ?_
    · simp [SupplyMonitor.Lawful]
    · simp [h.causes, causesOf, HoldCauses.put]
  · exact h
  · exact h

/-- The monitor after a change in which it neither comes to NORMAL nor goes from it calls for the same causes. -/
theorem State.ClockSupplyLawful.withSupply {s : State} (h : s.ClockSupplyLawful) {m : SupplyMonitor} (lawful : m.Lawful)
    (normal : m.state = .normal ↔ s.supply.state = .normal) : State.ClockSupplyLawful { s with supply := m } :=
  ⟨h.clock, lawful, by simp only [h.causes, causesOf, ne_eq, normal], h.restarts⟩

theorem State.ClockSupplyLawful.rise {s : State} (h : s.ClockSupplyLawful) :
    State.ClockSupplyLawful { s with supply := s.supply.rise } :=
  h.withSupply h.supply.rise s.supply.rise_normal

/-- A change of the filter and the threshold alone. -/
theorem State.ClockSupplyLawful.refilter {s : State} (h : s.ClockSupplyLawful) {m : SupplyMonitor}
    (kept : m.state = s.supply.state ∧ m.recoveryTimer = s.supply.recoveryTimer) :
    State.ClockSupplyLawful { s with supply := m } := by
  obtain ⟨state, timer⟩ := kept
  refine h.withSupply ?_ (by rw [state])
  rw [SupplyMonitor.Lawful, state, timer]
  exact h.supply

theorem State.ClockSupplyLawful.supplyTo {s : State} (h : s.ClockSupplyLawful) (mv : Nat) : (s.supplyTo mv).ClockSupplyLawful := by
  have noted : (s.supplyOnReset mv).ClockSupplyLawful := h.of_same ⟨rfl, rfl, rfl, rfl⟩
  have seen : State.ClockSupplyLawful { s.supplyOnReset mv with supply := s.supply.filterSees s.vdd mv } :=
    State.ClockSupplyLawful.refilter (s := s.supplyOnReset mv) noted (SupplyMonitor.filterSees_kept _ _ _)
  unfold State.supplyTo
  dsimp only
  split
  · exact noted
  · split
    · exact seen.rise
    · exact seen

/-- The part at the end of a device reset (R118, R136): the SUPPLY cause is present in LOW and in RECOVERING. -/
theorem State.endReset_clockSupplyLawful (s : State) : s.endReset.ClockSupplyLawful := by
  have monitor : (SupplyMonitor.afterReset s.vdd).Lawful ∧ (SupplyMonitor.afterReset s.vdd).state ≠ .normal := by
    unfold SupplyMonitor.afterReset
    split <;> simp [SupplyMonitor.Lawful]
  have clock : LeaseClock.afterReset.Lawful :=
    .of_restarted rfl rfl (by decide) (by decide) (fun _ => rfl) fun external => nomatch external
  have causes : ⟨true, false⟩ = causesOf (SupplyMonitor.afterReset s.vdd) .afterReset := by
    rw [causesOf, decide_eq_true monitor.2]; rfl
  exact ⟨clock, monitor.1, causes, Nat.zero_le _⟩

theorem State.ClockSupplyLawful.take {s : State} (h : s.ClockSupplyLawful) (d : Due) : (d.take s).ClockSupplyLawful := by
  cases d with
  | leaseTick => exact h.internalTick
  | silenceExpiry => exact h.silenceExpiry
  | frameStart => exact h.of_same s.startFrame_sameTimed
  | supplyLow => exact h.supplyLow
  | recoveryExpiry => exact h.recoveryExpiry
  | settleEnd n => exact h.of_same (s.settleEnd_sameTimed n)
  | senseFault n => exact h.of_same (s.senseFault_sameTimed n)
  | resetEnd => exact s.endReset_clockSupplyLawful

theorem State.ClockSupplyLawful.passMicrosecond {s : State} (h : s.ClockSupplyLawful) :
    s.passMicrosecond.ClockSupplyLawful := by
  refine takeDue_keeps (P := State.ClockSupplyLawful) (fun _ _ hs => hs.of_same ⟨rfl, rfl, rfl, rfl⟩)
    (fun d _ hs => hs.take d) mostDue _ ?_
  unfold State.advanceTimers
  split
  · exact h.of_same ⟨rfl, rfl, rfl, rfl⟩
  · have causes : s.causes = causesOf s.supply.advance s.clock.passTime := h.causes
    exact ⟨h.clock.passTime, h.supply.advance, by simpa only [State.mapChannels_causes] using causes,
      by simpa only [State.mapChannels_restartCount] using h.restarts⟩

/-! ## The requests -/

/-- A request whose effect keeps the laws keeps them when it is taken. -/
theorem State.ClockSupplyLawful.engineTake {s t : State} {st : Station} {bytes : List Byte} {effect : State → Answer}
    (h : s.ClockSupplyLawful) (keeps : ∀ w : State, w.ClockSupplyLawful → (effect w).1.ClockSupplyLawful)
    (taken : Machine.engineTake st bytes effect s = .next t) : t.ClockSupplyLawful := by
  rcases engineTake_cases taken with waits | ⟨w, before, -, rfl⟩
  · exact h.of_same waits.sameTimed
  · exact (keeps w (h.of_same before.sameTimed)).of_same (State.setPort_sameTimed _ _ _)

/-- A request whose effect has no part in the clock, the monitor and the causes. -/
theorem State.ClockSupplyLawful.engineTake_sameTimed {s t : State} {st : Station} {bytes : List Byte} {effect : State → Answer}
    (h : s.ClockSupplyLawful) (same : ∀ w : State, SameTimed w (effect w).1)
    (taken : Machine.engineTake st bytes effect s = .next t) : t.ClockSupplyLawful :=
  h.engineTake (fun w hw => hw.of_same (same w)) taken

theorem detachEffect_sameTimed (st : Station) (s : State) : SameTimed s (detachEffect st s).1 := by
  unfold detachEffect
  split
  · exact .refl s
  · exact (s.free_sameTimed _).trans ((State.setStation_sameTimed _ st _).trans (State.evaluateIf_sameTimed _ _))

theorem claimOutcome_sameTimed (options : Byte) (i : SlotNo) (l : Lease) (s : State) :
    SameTimed s (claimOutcome options i l s).1 := by
  unfold claimOutcome
  split
  · exact (s.setSlot_sameTimed i _).trans (State.makeHeld_sameTimed _ i)
  · split
    · have lapsed := s.lapse_sameTimed (s.victims l.channels) .preempted
      exact lapsed.trans ((State.setSlot_sameTimed _ i _).trans
        ((State.makeHeld_sameTimed _ i).trans (State.evaluateIf_sameTimed _ _)))
    · repeat' split
      all_goals exact ⟨rfl, rfl, rfl, rfl⟩

theorem claimEffect_sameTimed (st : Station) (options : Byte) (term : Word) (warnMargin count : Byte) (channels : List Byte)
    (s : State) : SameTimed s (claimEffect st options term warnMargin count channels s).1 := by
  unfold claimEffect
  repeat' split
  all_goals try exact .refl s
  exact claimOutcome_sameTimed options _ _ s

theorem driveEffect_sameTimed (st : Station) (handle count : Byte) (entries : List DriveEntry) (s : State) :
    SameTimed s (driveEffect st handle count entries s).1 := by
  unfold driveEffect
  repeat' split
  all_goals try exact .refl s
  dsimp only
  split
  · exact .refl s
  · exact (s.applyDrives_frame _).2.sameTimed

theorem releaseEffect_sameTimed (st : Station) (handle : Byte) (s : State) : SameTimed s (releaseEffect st handle s).1 := by
  unfold releaseEffect
  repeat' split
  all_goals try exact .refl s
  exact (s.free_sameTimed _).trans (State.evaluateIf_sameTimed _ _)

theorem revokeEffect_sameTimed (st : Station) (handle : Byte) (s : State) : SameTimed s (revokeEffect st handle s).1 := by
  unfold revokeEffect
  repeat' split
  all_goals try exact .refl s
  exact (s.lapse_sameTimed _ _).trans (State.grantEvaluation_sameTimed _)

theorem clearFaultEffect_sameTimed (st : Station) (channel : Byte) (s : State) :
    SameTimed s (clearFaultEffect st channel s).1 := by
  unfold clearFaultEffect
  repeat' split
  all_goals try exact .refl s
  exact s.clearFault_sameTimed _

/-- An accepted CONFIG_CLOCK leaves the clock RUNNING, and the CLOCK cause leaves if it was LOST (R126, R127). -/
theorem State.ClockSupplyLawful.configClockEffect {s : State} (h : s.ClockSupplyLawful) (st : Station)
    (sourceEdge rate silence frame settle : Byte) :
    (Machine.configClockEffect st sourceEdge rate silence frame settle s).1.ClockSupplyLawful := by
  unfold Machine.configClockEffect
  split
  · exact h
  · next passes =>
    have accepted : configClockBadArg sourceEdge rate silence frame settle = false :=
      firstFailing_eq_none.1 passes (configClockBadArg sourceEdge rate silence frame settle, .badArg)
        (by simp [configClockChecks])
    have clock := s.clock.configure_lawful accepted
    have framed (u : State) : SameTimed u (u.startFrame.mapChannels fun _ c => c.restartSettle) :=
      u.startFrame_sameTimed.trans (State.mapChannels_sameTimed _ _)
    refine State.ClockSupplyLawful.of_same ?_ (framed _)
    split
    · refine State.ClockSupplyLawful.leaveHold clock h.supply h.restarts ?_
      simp [h.causes, causesOf, HoldCauses.put, LeaseClock.configure]
    · next kept => exact ⟨clock, h.supply, by simp [h.causes, causesOf, kept, LeaseClock.configure], h.restarts⟩

/-- A new threshold changes the filter and the threshold, and a rise may follow at once (R133). -/
theorem SupplyMonitor.configure_cases (mv : Nat) (index : Fin 4) (m : SupplyMonitor) :
    ∃ seen : SupplyMonitor, (seen.state = m.state ∧ seen.recoveryTimer = m.recoveryTimer) ∧
      m.configure mv index = if seen.riseLevel < mv then seen.rise else seen := by
  refine ⟨_, ?_, rfl⟩
  exact ⟨rfl, rfl⟩

theorem State.ClockSupplyLawful.configSupplyEffect {s : State} (h : s.ClockSupplyLawful) (st : Station) (index : Byte) :
    (Machine.configSupplyEffect st index s).1.ClockSupplyLawful := by
  unfold Machine.configSupplyEffect
  repeat' split
  · exact h
  · exact h
  · next i _ =>
    obtain ⟨seen, kept, judged⟩ := s.supply.configure_cases s.vdd i
    rw [judged]
    split
    · exact (h.refilter kept).rise
    · exact h.refilter kept

/-- A RESTART counts itself, and the count saturates (R161). -/
theorem State.ClockSupplyLawful.restartEffect {s : State} (h : s.ClockSupplyLawful) (st : Station) :
    (Machine.restartEffect st s).1.ClockSupplyLawful := by
  have freed := s.free_sameTimed fun _ => true
  unfold Machine.restartEffect
  split
  · exact h
  · refine State.ClockSupplyLawful.of_same (s := { s with restartCount := min 255 (s.restartCount + 1) })
      ⟨h.clock, h.supply, h.causes, Nat.min_le_left _ _⟩ ⟨?_, ?_, ?_, rfl⟩
    · simp only [accept, State.restart, State.mapStations_clock, freed.clock]
    · simp only [accept, State.restart, State.mapStations_supply, freed.supply]
    · simp only [accept, State.restart, State.mapStations_causes, freed.causes]

/-! ## Every command -/

/-- An event that does not come while a device reset lasts. -/
theorem State.ClockSupplyLawful.outsideReset {s t u : State} (h : s.ClockSupplyLawful) (hu : u.ClockSupplyLawful)
    (taken : (.next (if s.resetCtl.active then s else u) : Host.Outcome State Fault Refusal) = .next t) :
    t.ClockSupplyLawful := by
  cases taken
  split
  · exact h
  · exact hu

theorem State.writeCycle_sameTimed (s : State) (p : Station) (cycle : Port → Port) : SameTimed s (s.writeCycle p cycle) := by
  unfold State.writeCycle
  split
  · exact .refl s
  · exact s.setPort_sameTimed p _

theorem State.readCycle_sameTimed (s : State) (p : Station) (cycle : Port → Port) : SameTimed s (s.readCycle p cycle) := by
  unfold State.readCycle
  split <;> exact s.setPort_sameTimed p _

/-- Every command keeps the laws of the clock, the monitor and the causes (R118, R123, R129, R138). -/
theorem exec_keeps_clockSupplyLawful (i : Instr) (s t : State) (h : s.ClockSupplyLawful) (taken : exec i s = .next t) :
    t.ClockSupplyLawful := by
  cases i with
  | readStatus st => exact h.engineTake_sameTimed (fun _ => ⟨rfl, rfl, rfl, rfl⟩) taken
  | queryChannel st channel =>
    refine h.engineTake_sameTimed (fun w => ?_) taken
    unfold queryChannelEffect
    split <;> exact ⟨rfl, rfl, rfl, rfl⟩
  | queryLease st handle =>
    refine h.engineTake_sameTimed (fun w => ?_) taken
    unfold queryLeaseEffect
    repeat' split
    all_goals exact ⟨rfl, rfl, rfl, rfl⟩
  | listLeases st station =>
    refine h.engineTake_sameTimed (fun w => ?_) taken
    unfold listLeasesEffect
    split <;> exact ⟨rfl, rfl, rfl, rfl⟩
  | attach st =>
    refine h.engineTake_sameTimed (fun w => ?_) taken
    unfold attachEffect
    split <;> exact ⟨rfl, rfl, rfl, rfl⟩
  | detach st => exact h.engineTake_sameTimed (detachEffect_sameTimed st) taken
  | setMask st mask =>
    refine h.engineTake_sameTimed (fun w => ?_) taken
    unfold setMaskEffect
    split <;> exact ⟨rfl, rfl, rfl, rfl⟩
  | poll st =>
    refine h.engineTake_sameTimed (fun w => ?_) taken
    unfold pollEffect
    split
    · exact ⟨rfl, rfl, rfl, rfl⟩
    · obtain ⟨-, -, -, ⟨clock, -⟩, ⟨supply, causes⟩, ⟨-, -, restarts⟩, -⟩ := w.clearNotices_frame st
      exact ⟨clock, supply, causes, restarts⟩
  | claim st options term warnMargin count channels =>
    exact h.engineTake_sameTimed (claimEffect_sameTimed st options term warnMargin count channels) taken
  | renew st handle newTerm =>
    refine h.engineTake_sameTimed (fun w => ?_) taken
    unfold renewEffect
    repeat' split
    all_goals exact ⟨rfl, rfl, rfl, rfl⟩
  | renewAll st =>
    refine h.engineTake_sameTimed (fun w => ?_) taken
    unfold renewAllEffect
    split
    · exact ⟨rfl, rfl, rfl, rfl⟩
    · exact w.mapSlots_sameTimed _
  | drive st handle count entries => exact h.engineTake_sameTimed (driveEffect_sameTimed st handle count entries) taken
  | release st handle => exact h.engineTake_sameTimed (releaseEffect_sameTimed st handle) taken
  | configChannel st channel config minClass =>
    refine h.engineTake_sameTimed (fun w => ?_) taken
    unfold configChannelEffect
    repeat' split
    all_goals exact ⟨rfl, rfl, rfl, rfl⟩
  | configStation st station cls quota =>
    refine h.engineTake_sameTimed (fun w => ?_) taken
    unfold configStationEffect
    repeat' split
    all_goals exact ⟨rfl, rfl, rfl, rfl⟩
  | configClock st sourceEdge rate silence frame settle =>
    exact h.engineTake (fun _ hw => hw.configClockEffect st sourceEdge rate silence frame settle) taken
  | configSupply st index => exact h.engineTake (fun _ hw => hw.configSupplyEffect st index) taken
  | clearFault st channel => exact h.engineTake_sameTimed (clearFaultEffect_sameTimed st channel) taken
  | revoke st handle => exact h.engineTake_sameTimed (revokeEffect_sameTimed st handle) taken
  | restart st => exact h.engineTake (fun _ hw => hw.restartEffect st) taken
  | commandByte p code => cases taken; exact h.of_same (s.writeCycle_sameTimed p _)
  | dataByte p b => cases taken; exact h.of_same (s.writeCycle_sameTimed p _)
  | unknownCommandByte p b => cases taken; exact h.of_same (s.writeCycle_sameTimed p _)
  | abort p => cases taken; exact h.of_same (s.writeCycle_sameTimed p _)
  | replay p => cases taken; exact h.of_same (s.writeCycle_sameTimed p _)
  | statusRead p => cases taken; exact h.of_same (s.readCycle_sameTimed p _)
  | dataRead p => cases taken; exact h.of_same (s.readCycle_sameTimed p _)
  | leaseTick => exact h.outsideReset h.internalTick taken
  | leaseExpiry => exact h.outsideReset (h.of_same (State.Checks.expireDue s).sameTimed) taken
  | pulseEnd n => exact h.outsideReset (h.of_same (s.setChannel_sameTimed n _)) taken
  | frameStart => exact h.outsideReset (h.of_same s.startFrame_sameTimed) taken
  | senseChange n level =>
    cases taken
    split <;> exact h.of_same (s.setChannel_sameTimed n _)
  | settleEnd n => exact h.outsideReset (h.of_same (s.settleEnd_sameTimed n)) taken
  | senseFault n => exact h.outsideReset (h.of_same (s.senseFault_sameTimed n)) taken
  | qualifyingEdge edge =>
    have moved : State.ClockSupplyLawful { s with tickPin := edgeLevel edge } := h.of_same ⟨rfl, rfl, rfl, rfl⟩
    cases taken
    split
    · exact moved
    · split
      · next qualifies => exact moved.takeEdge (LeaseClock.qualifies_iff.1 qualifies).1
      · exact moved
  | silenceExpiry => exact h.outsideReset h.silenceExpiry taken
  | supplyBelowVt mv => cases taken; exact h.supplyTo mv
  | supplyAboveVt mv => cases taken; exact h.supplyTo mv
  | supplyLowEvent => exact h.outsideReset h.supplyLow taken
  | supplyRise mv =>
    cases taken
    split
    · exact (h.supplyTo mv).rise
    · exact h.supplyTo mv
  | recoveryExpiry => exact h.outsideReset h.recoveryExpiry taken
  | deviceReset condition =>
    cases condition with
    | supply mv => cases taken; exact h.supplyTo mv
    | pin => cases taken; exact h.of_same ⟨rfl, rfl, rfl, rfl⟩
  | resetEnd =>
    cases taken
    split
    · exact s.endReset_clockSupplyLawful
    · exact h
  | lastResetConditionClears condition =>
    cases condition with
    | supply mv => cases taken; exact h.supplyTo mv
    | pin => cases taken; exact h.of_same ⟨rfl, rfl, rfl, rfl⟩

/-- Settles O10: the laws, taken apart into those of the clock, of the monitor and of the causes they call for, are kept by every
command, by the engine's own take, and by the passing of time. -/
theorem stepKeepsClockAndSupplyLaws : Obligations.StepKeepsClockAndSupplyLaws := by
  unfold Obligations.StepKeepsClockAndSupplyLaws
  intro s t h taken
  rw [← State.clockSupplyLawful_iff] at h ⊢
  exact step_keeps (P := State.ClockSupplyLawful) (fun _ _ hs => hs.of_same ⟨rfl, rfl, rfl, rfl⟩) exec_keeps_clockSupplyLawful
    (fun _ hs => hs.passMicrosecond) h taken

end Sys2Proof.Machine
end

section
/-! PROOFS. Every step keeps the law of hold-down: while a cause is present no lease is HELD. A lease becomes HELD by a grant alone,
and no grant comes while a cause is present; a cause that enters an empty set lapses every HELD lease. -/

namespace Sys2Proof.Machine

open Sys2Proof

/-! ## Slots whose lease is HELD -/

/-- The slot holds a HELD lease. -/
def Slot.isHeld (x : Slot) : Bool := x.lease.any Lease.isHeld

theorem State.slotHas_isHeld (s : State) (i : SlotNo) : s.slotHas Lease.isHeld i = (s.slot i).isHeld := by
  unfold State.slotHas State.leaseAt Slot.isHeld
  cases (s.slot i).lease <;> rfl

/-- A change of a slot's lease that makes no lease HELD makes no slot hold a HELD one. -/
theorem Slot.isHeld_of_map {x : Slot} {f : Lease → Lease} (keeps : ∀ l, (f l).isHeld = true → l.isHeld = true)
    (held : Slot.isHeld { x with lease := x.lease.map f } = true) : x.isHeld = true := by
  simp only [Slot.isHeld, Option.any_map, Option.any_eq_true] at held ⊢
  obtain ⟨l, at_slot, changed⟩ := held
  exact ⟨l, at_slot, keeps l changed⟩

theorem Lease.isHeld_lapse (cause : LapseCause) (l : Lease) : (l.lapse cause).isHeld = false := by
  obtain ⟨holder, state, rest⟩ := l
  cases state <;> rfl

theorem Slot.isHeld_lapse (cause : LapseCause) (x : Slot) : (x.lapse cause).isHeld = false := by
  cases lease : x.lease with
  | none => simp [Slot.isHeld, Slot.lapse, lease]
  | some l => simp [Slot.isHeld, Slot.lapse, lease, Lease.isHeld_lapse]

theorem Slot.isHeld_free (x : Slot) : x.free.isHeld = false := by
  unfold Slot.free
  split
  · rfl
  · next free => rw [Slot.isHeld, free]; rfl

theorem Lease.isHeld_countDown (l : Lease) : l.countDown.isHeld = l.isHeld := by
  cases held : l.isHeld with
  | false => rw [Lease.countDown_of_not_held held, held]
  | true =>
    obtain ⟨warned, notices, counted⟩ := Lease.countDown_held held
    rw [counted]
    exact held

/-! ## The law of hold-down under each change -/

/-- A change that keeps the causes and makes no lease HELD. -/
theorem State.HoldDownLawful.of_held {s t : State} (h : s.HoldDownLawful) (causes : t.causes = s.causes)
    (held : ∀ i, (t.slot i).isHeld = true → (s.slot i).isHeld = true) : t.HoldDownLawful := by
  intro down i
  rw [State.holdDown, causes] at down
  have before := h down i
  rw [State.slotHas_isHeld] at before ⊢
  exact Bool.eq_false_iff.2 fun after => Bool.eq_false_iff.1 before (held i after)

/-- The law rests on the slots and the causes alone. -/
theorem State.HoldDownLawful.of_slots {s t : State} (h : s.HoldDownLawful) (slots : t.slots = s.slots)
    (causes : t.causes = s.causes) : t.HoldDownLawful :=
  h.of_held causes fun i held => by rwa [State.slot, slots] at held

/-- With no cause present any lease may be HELD. -/
theorem State.holdDownLawful_of_free {s : State} (free : s.causes.isEmpty = true) : s.HoldDownLawful := by
  intro down
  rw [State.holdDown, free] at down
  cases down

/-- With no lease HELD any cause may be present. -/
theorem State.holdDownLawful_of_none {s t : State} (noneHeld : ∀ i, (s.slot i).isHeld = false) (slots : t.slots = s.slots) :
    t.HoldDownLawful := by
  intro _ i
  rw [State.slotHas_isHeld, State.slot, slots]
  exact noneHeld i

theorem State.HoldDownLawful.setSlot {s : State} (h : s.HoldDownLawful) {i : SlotNo} {x : Slot}
    (held : x.isHeld = true → (s.slot i).isHeld = true) : (s.setSlot i x).HoldDownLawful := by
  refine h.of_held rfl fun k after => ?_
  rw [State.slot_setSlot] at after
  split at after
  · next same => exact same ▸ held after
  · exact after

theorem State.HoldDownLawful.mapSlots {s : State} (h : s.HoldDownLawful) {f : SlotNo → Slot → Slot}
    (held : ∀ i x, (f i x).isHeld = true → x.isHeld = true) : (s.mapSlots f).HoldDownLawful :=
  h.of_held (s.mapSlots_causes f) fun i after => by
    rw [State.slot_mapSlots] at after
    exact held i _ after

theorem State.HoldDownLawful.mapChannels {s : State} (h : s.HoldDownLawful) (f : ChannelNo → Channel → Channel) :
    (s.mapChannels f).HoldDownLawful :=
  h.of_slots (s.mapChannels_slots f) (s.mapChannels_causes f)

theorem State.HoldDownLawful.lapse {s : State} (h : s.HoldDownLawful) (p : SlotNo → Bool) (cause : LapseCause) :
    (s.lapse p cause).HoldDownLawful := by
  refine h.of_held (s.lapse_sameTimed p cause).causes fun i held => ?_
  rw [State.lapse_slot] at held
  split at held
  · rw [Slot.isHeld_lapse] at held; cases held
  · exact held

theorem State.HoldDownLawful.free {s : State} (h : s.HoldDownLawful) (p : SlotNo → Bool) : (s.free p).HoldDownLawful := by
  refine h.of_held (s.free_sameTimed p).causes fun i held => ?_
  rw [State.free_slot] at held
  split at held
  · rw [Slot.isHeld_free] at held; cases held
  · exact held

/-- Grant evaluation grants only while no cause is present (R39, R42). -/
theorem State.HoldDownLawful.grantEvaluation {s : State} (h : s.HoldDownLawful) : s.grantEvaluation.HoldDownLawful := by
  cases present : s.causes.isEmpty with
  | false => rw [State.grantEvaluation, evaluationPass_held present]; exact h
  | true => exact State.holdDownLawful_of_free (by rw [s.grantEvaluation_sameTimed.causes, present])

theorem State.HoldDownLawful.evaluateIf {s : State} (h : s.HoldDownLawful) (triggered : Bool) :
    (s.evaluateIf triggered).HoldDownLawful := by
  unfold State.evaluateIf
  split
  · exact h.grantEvaluation
  · exact h

/-- The entry of hold-down lapses every HELD lease, and a cause that joins finds none (R138, R139). -/
theorem State.HoldDownLawful.enterHold {s : State} (h : s.HoldDownLawful) (k : HoldCause) :
    (s.enterHold k).HoldDownLawful := by
  cases empty : s.causes.isEmpty with
  | true =>
    rw [State.enterHold_first k empty]
    refine State.holdDownLawful_of_none (s := s.lapse (s.slotHas Lease.isHeld) k.lapseCause) (fun i => ?_) (by dsimp only)
    rw [State.lapse_slot, State.slotHas_isHeld]
    cases held : (s.slot i).isHeld with
    | true => exact Slot.isHeld_lapse _ _
    | false => exact held
  | false =>
    rw [State.enterHold_joins k empty]
    exact fun _ => h (by rw [State.holdDown, empty]; rfl)

/-- A set that some cause stays in has a cause present. -/
theorem HoldCauses.isEmpty_of_put {c : HoldCauses} {k : HoldCause} (left : (c.put k false).isEmpty = false) :
    c.isEmpty = false := by
  obtain ⟨supply, clock⟩ := c
  cases k with
  | supply => simp_all [HoldCauses.put, HoldCauses.isEmpty]
  | clock => simp_all [HoldCauses.put, HoldCauses.isEmpty]

/-- The last cause that leaves frees the part from the law, and one that leaves another behind changes no lease (R138, R141). -/
theorem State.HoldDownLawful.leaveHold {s : State} (h : s.HoldDownLawful) (k : HoldCause) :
    (s.leaveHold k).HoldDownLawful := by
  cases left : (s.causes.put k false).isEmpty with
  | true => exact State.holdDownLawful_of_free (by rw [(State.Checks.leaveHold s k).causes]; exact left)
  | false =>
    rw [State.leaveHold_stays k left]
    exact fun _ => h (by rw [State.holdDown, HoldCauses.isEmpty_of_put left]; rfl)

/-! ## The events -/

theorem State.HoldDownLawful.expireDue {s : State} (h : s.HoldDownLawful) : s.expireDue.HoldDownLawful :=
  (h.lapse _ .expired).evaluateIf _

theorem State.HoldDownLawful.leaseTick {s : State} (h : s.HoldDownLawful) : s.leaseTick.HoldDownLawful := by
  have advanced : State.HoldDownLawful { s with clock := s.clock.advance } := h
  have counted := (advanced.mapChannels fun _ c => c.redrive HeldUse.countPulse).mapSlots
    (f := fun _ x => { x with lease := x.lease.map Lease.countDown })
    fun _ _ => Slot.isHeld_of_map fun l held => by rwa [Lease.isHeld_countDown] at held
  exact counted.expireDue

theorem State.HoldDownLawful.internalTick {s : State} (h : s.HoldDownLawful) : s.internalTick.HoldDownLawful := by
  unfold State.internalTick
  split
  · exact State.HoldDownLawful.leaseTick h
  · exact h

theorem State.HoldDownLawful.takeEdge {s : State} (h : s.HoldDownLawful) : s.takeEdge.HoldDownLawful := by
  unfold State.takeEdge State.countEdge State.recoverClock
  dsimp only
  split
  · split
    · exact State.HoldDownLawful.leaseTick h
    · exact h
  · exact State.HoldDownLawful.leaveHold (by exact h) .clock

theorem State.HoldDownLawful.silenceExpiry {s : State} (h : s.HoldDownLawful) : s.silenceExpiry.HoldDownLawful := by
  unfold State.silenceExpiry
  split
  · exact h
  · exact State.HoldDownLawful.enterHold (by exact h) .clock

theorem State.HoldDownLawful.startFrame {s : State} (h : s.HoldDownLawful) : s.startFrame.HoldDownLawful :=
  h.of_slots (by simp only [State.startFrame, State.mapChannels_slots]) s.startFrame_sameTimed.causes

theorem State.HoldDownLawful.supplyLow {s : State} (h : s.HoldDownLawful) : s.supplyLow.HoldDownLawful := by
  unfold State.supplyLow
  dsimp only
  split
  · exact h
  · split
    · exact State.HoldDownLawful.enterHold (by exact h) .supply
    · exact h
    · exact h

theorem State.HoldDownLawful.recoveryExpiry {s : State} (h : s.HoldDownLawful) : s.recoveryExpiry.HoldDownLawful := by
  unfold State.recoveryExpiry
  split
  · exact State.HoldDownLawful.leaveHold (by exact h) .supply
  · exact h
  · exact h

theorem State.HoldDownLawful.senseFault {s : State} (h : s.HoldDownLawful) (n : ChannelNo) :
    (s.senseFault n).HoldDownLawful := by
  have faulted : (s.setChannel n (s.channel n).fault).HoldDownLawful := h
  unfold State.senseFault State.takeFault
  split
  · split
    · exact ((faulted.lapse _ .fault).of_slots (by rw [State.raiseFault]) (by rw [State.raiseFault])).grantEvaluation
    · exact faulted
    · exact h
  · exact h

/-- After a device reset the SUPPLY cause is present, and no slot holds a lease (R22, R136). -/
theorem State.endReset_holdDownLawful (s : State) : s.endReset.HoldDownLawful := by
  intro _ i
  rw [State.slotHas, State.leaseAt_endReset]

theorem State.HoldDownLawful.take {s : State} (h : s.HoldDownLawful) (d : Due) : (d.take s).HoldDownLawful := by
  cases d with
  | leaseTick => exact h.internalTick
  | silenceExpiry => exact h.silenceExpiry
  | frameStart => exact h.startFrame
  | supplyLow => exact h.supplyLow
  | recoveryExpiry => exact h.recoveryExpiry
  | settleEnd n => exact h
  | senseFault n => exact h.senseFault n
  | resetEnd => exact s.endReset_holdDownLawful

theorem State.HoldDownLawful.passMicrosecond {s : State} (h : s.HoldDownLawful) : s.passMicrosecond.HoldDownLawful := by
  refine takeDue_keeps (P := State.HoldDownLawful) (fun _ _ hs => hs) (fun d _ hs => hs.take d) mostDue _ ?_
  unfold State.advanceTimers
  split
  · exact h
  · exact h.of_slots (by simp only [State.mapChannels_slots]) (by simp only [State.mapChannels_causes])

/-! ## The requests -/

/-- The ports have no part in the law. -/
theorem State.HoldDownLawful.of_ports {s t : State} (h : s.HoldDownLawful) (same : SameBesidePorts s t) :
    t.HoldDownLawful := by
  obtain ⟨⟨slots, -⟩, -, -, -, ⟨-, causes⟩, -⟩ := same
  exact h.of_slots slots causes

/-- A request whose effect keeps the law keeps it when it is taken. -/
theorem State.HoldDownLawful.engineTake {s t : State} {st : Station} {bytes : List Byte} {effect : State → Answer}
    (h : s.HoldDownLawful) (keeps : ∀ w : State, w.HoldDownLawful → (effect w).1.HoldDownLawful)
    (taken : Machine.engineTake st bytes effect s = .next t) : t.HoldDownLawful := by
  rcases engineTake_cases taken with same | ⟨w, same, -, rfl⟩
  · exact h.of_ports same
  · exact (keeps w (h.of_ports same)).of_slots rfl rfl

/-- A CLAIM is refused while a cause is present (R26 step 9). -/
theorem claimEffect_holdDown {s : State} (down : s.holdDown = true) (st : Station) (options : Byte) (term : Word)
    (warnMargin count : Byte) (channels : List Byte) :
    (claimEffect st options term warnMargin count channels s).1 = s := by
  unfold claimEffect
  split
  · rfl
  · next passes =>
    have free : s.holdDown = false :=
      firstFailing_eq_none.1 passes (s.holdDown, .holdDown) (by simp [claimAdmissionChecks])
    exact absurd (down.symm.trans free) (by decide)

theorem State.HoldDownLawful.claimEffect {s : State} (h : s.HoldDownLawful) (st : Station) (options : Byte) (term : Word)
    (warnMargin count : Byte) (channels : List Byte) :
    (Machine.claimEffect st options term warnMargin count channels s).1.HoldDownLawful := by
  cases present : s.causes.isEmpty with
  | false => rw [claimEffect_holdDown (by rw [State.holdDown, present]; rfl)]; exact h
  | true =>
    refine State.holdDownLawful_of_free ?_
    rw [(claimEffect_sameTimed st options term warnMargin count channels s).causes, present]

theorem State.HoldDownLawful.detachEffect {s : State} (h : s.HoldDownLawful) (st : Station) :
    (Machine.detachEffect st s).1.HoldDownLawful := by
  unfold Machine.detachEffect
  split
  · exact h
  · exact ((h.free (s.ownedBy st)).of_slots (State.setStation_slots _ _ _) (State.setStation_causes _ _ _)).evaluateIf _

theorem State.HoldDownLawful.pollEffect {s : State} (h : s.HoldDownLawful) (st : Station) :
    (Machine.pollEffect st s).1.HoldDownLawful := by
  unfold Machine.pollEffect
  split
  · exact h
  · obtain ⟨-, -, -, -, ⟨-, causes⟩, -⟩ := s.clearNotices_frame st
    refine h.of_held causes fun i held => ?_
    rw [accept, State.slot_clearNotices] at held
    split at held
    · exact Slot.isHeld_of_map (f := fun l => { l with notices := .empty }) (fun _ same => same) held
    · exact held

theorem State.HoldDownLawful.renewEffect {s : State} (h : s.HoldDownLawful) (st : Station) (handle : Byte) (newTerm : Word) :
    (Machine.renewEffect st handle newTerm s).1.HoldDownLawful := by
  unfold Machine.renewEffect
  repeat' split
  all_goals try exact h
  exact h.setSlot (Slot.isHeld_of_map fun _ same => same)

theorem State.HoldDownLawful.renewAllEffect {s : State} (h : s.HoldDownLawful) (st : Station) :
    (Machine.renewAllEffect st s).1.HoldDownLawful := by
  unfold Machine.renewAllEffect
  split
  · exact h
  · dsimp only [accept, State.renewAll]
    refine h.mapSlots fun i x held => ?_
    split at held
    · exact Slot.isHeld_of_map (f := Lease.renew s.clock.tickCounter 0) (fun _ same => same) held
    · exact held

theorem State.applyDrives_slots (s : State) (settings : List (ChannelNo × Drive)) :
    (s.applyDrives settings).slots = s.slots :=
  List.foldlRecOn (motive := fun t : State => t.slots = s.slots) settings _ rfl fun _ same _ _ => same

theorem State.HoldDownLawful.driveEffect {s : State} (h : s.HoldDownLawful) (st : Station) (handle count : Byte)
    (entries : List DriveEntry) : (Machine.driveEffect st handle count entries s).1.HoldDownLawful := by
  refine h.of_slots ?_ (driveEffect_sameTimed st handle count entries s).causes
  unfold Machine.driveEffect
  repeat' split
  all_goals try rfl
  dsimp only
  split
  · rfl
  · exact s.applyDrives_slots _

theorem State.HoldDownLawful.releaseEffect {s : State} (h : s.HoldDownLawful) (st : Station) (handle : Byte) :
    (Machine.releaseEffect st handle s).1.HoldDownLawful := by
  unfold Machine.releaseEffect
  repeat' split
  all_goals try exact h
  exact (h.free _).evaluateIf _

theorem State.HoldDownLawful.revokeEffect {s : State} (h : s.HoldDownLawful) (st : Station) (handle : Byte) :
    (Machine.revokeEffect st handle s).1.HoldDownLawful := by
  unfold Machine.revokeEffect
  repeat' split
  all_goals try exact h
  exact (h.lapse _ .revoked).grantEvaluation

theorem State.HoldDownLawful.configClockEffect {s : State} (h : s.HoldDownLawful) (st : Station)
    (sourceEdge rate silence frame settle : Byte) :
    (Machine.configClockEffect st sourceEdge rate silence frame settle s).1.HoldDownLawful := by
  have configured : State.HoldDownLawful { s with clock := s.clock.configure sourceEdge rate silence frame settle } := h
  unfold Machine.configClockEffect
  split
  · exact h
  · refine State.HoldDownLawful.mapChannels (State.HoldDownLawful.startFrame ?_) _
    split
    · exact configured.leaveHold .clock
    · exact configured

theorem State.HoldDownLawful.clearFaultEffect {s : State} (h : s.HoldDownLawful) (st : Station) (channel : Byte) :
    (Machine.clearFaultEffect st channel s).1.HoldDownLawful := by
  have cleared (n : ChannelNo) : (s.clearFault n).HoldDownLawful := by
    have idle : (s.setChannel n (s.channel n).toFallback).HoldDownLawful := h
    unfold State.clearFault
    split
    · exact idle.grantEvaluation
    · exact h
  unfold Machine.clearFaultEffect
  repeat' split
  · exact h
  · exact h
  · exact cleared _

theorem State.HoldDownLawful.restartEffect {s : State} (h : s.HoldDownLawful) (st : Station) :
    (Machine.restartEffect st s).1.HoldDownLawful := by
  unfold Machine.restartEffect
  split
  · exact h
  · exact (h.free fun _ => true).of_slots (by simp only [accept, State.restart, State.mapStations_slots])
      (by simp only [accept, State.restart, State.mapStations_causes])

/-! ## Every command -/

theorem State.HoldDownLawful.writeCycle {s : State} (h : s.HoldDownLawful) (p : Station) (cycle : Port → Port) :
    (s.writeCycle p cycle).HoldDownLawful := by
  unfold State.writeCycle
  split <;> exact h

theorem State.HoldDownLawful.readCycle {s : State} (h : s.HoldDownLawful) (p : Station) (cycle : Port → Port) :
    (s.readCycle p cycle).HoldDownLawful := by
  unfold State.readCycle
  split <;> exact h

theorem State.HoldDownLawful.supplyTo {s : State} (h : s.HoldDownLawful) (mv : Nat) : (s.supplyTo mv).HoldDownLawful := by
  unfold State.supplyTo
  dsimp only
  split <;> exact h

/-- An event that does not come while a device reset lasts. -/
theorem State.HoldDownLawful.outsideReset {s t u : State} (h : s.HoldDownLawful) (hu : u.HoldDownLawful)
    (taken : (.next (if s.resetCtl.active then s else u) : Host.Outcome State Fault Refusal) = .next t) :
    t.HoldDownLawful := by
  cases taken
  split
  · exact h
  · exact hu

/-- Every command keeps the law of hold-down (R138, R139). -/
theorem exec_keeps_holdDownLawful (i : Instr) (s t : State) (h : s.HoldDownLawful) (taken : exec i s = .next t) :
    t.HoldDownLawful := by
  cases i with
  | readStatus st => exact h.engineTake (fun _ hw => hw) taken
  | queryChannel st channel =>
    refine h.engineTake (fun w hw => ?_) taken
    unfold queryChannelEffect
    split <;> exact hw
  | queryLease st handle =>
    refine h.engineTake (fun w hw => ?_) taken
    unfold queryLeaseEffect
    repeat' split
    all_goals exact hw
  | listLeases st station =>
    refine h.engineTake (fun w hw => ?_) taken
    unfold listLeasesEffect
    split <;> exact hw
  | attach st =>
    refine h.engineTake (fun w hw => ?_) taken
    unfold attachEffect
    split <;> exact hw
  | detach st => exact h.engineTake (fun _ hw => hw.detachEffect st) taken
  | setMask st mask =>
    refine h.engineTake (fun w hw => ?_) taken
    unfold setMaskEffect
    split <;> exact hw
  | poll st => exact h.engineTake (fun _ hw => hw.pollEffect st) taken
  | claim st options term warnMargin count channels =>
    exact h.engineTake (fun _ hw => hw.claimEffect st options term warnMargin count channels) taken
  | renew st handle newTerm => exact h.engineTake (fun _ hw => hw.renewEffect st handle newTerm) taken
  | renewAll st => exact h.engineTake (fun _ hw => hw.renewAllEffect st) taken
  | drive st handle count entries => exact h.engineTake (fun _ hw => hw.driveEffect st handle count entries) taken
  | release st handle => exact h.engineTake (fun _ hw => hw.releaseEffect st handle) taken
  | configChannel st channel config minClass =>
    refine h.engineTake (fun w hw => ?_) taken
    unfold configChannelEffect
    repeat' split
    all_goals exact hw
  | configStation st station cls quota =>
    refine h.engineTake (fun w hw => ?_) taken
    unfold configStationEffect
    repeat' split
    all_goals exact hw
  | configClock st sourceEdge rate silence frame settle =>
    exact h.engineTake (fun _ hw => hw.configClockEffect st sourceEdge rate silence frame settle) taken
  | configSupply st index =>
    refine h.engineTake (fun w hw => ?_) taken
    unfold configSupplyEffect
    repeat' split
    all_goals exact hw
  | clearFault st channel => exact h.engineTake (fun _ hw => hw.clearFaultEffect st channel) taken
  | revoke st handle => exact h.engineTake (fun _ hw => hw.revokeEffect st handle) taken
  | restart st => exact h.engineTake (fun _ hw => hw.restartEffect st) taken
  | commandByte p _ | dataByte p _ | unknownCommandByte p _ | abort p | replay p => cases taken; exact h.writeCycle p _
  | statusRead p | dataRead p => cases taken; exact h.readCycle p _
  | leaseTick => exact h.outsideReset h.internalTick taken
  | leaseExpiry => exact h.outsideReset h.expireDue taken
  | pulseEnd n => exact h.outsideReset (u := s.setChannel n _) h taken
  | frameStart => exact h.outsideReset h.startFrame taken
  | senseChange n level =>
    cases taken
    split <;> exact h
  | settleEnd n => exact h.outsideReset (u := s.settleEnd n) h taken
  | senseFault n => exact h.outsideReset (h.senseFault n) taken
  | qualifyingEdge edge =>
    have moved : State.HoldDownLawful { s with tickPin := edgeLevel edge } := h
    cases taken
    repeat' split
    · exact moved
    · exact moved.takeEdge
    · exact moved
  | silenceExpiry => exact h.outsideReset h.silenceExpiry taken
  | supplyBelowVt mv | supplyAboveVt mv => cases taken; exact h.supplyTo mv
  | supplyLowEvent => exact h.outsideReset h.supplyLow taken
  | supplyRise mv =>
    cases taken
    split <;> exact h.supplyTo mv
  | recoveryExpiry => exact h.outsideReset h.recoveryExpiry taken
  | deviceReset condition | lastResetConditionClears condition =>
    cases condition with
    | supply mv => cases taken; exact h.supplyTo mv
    | pin => cases taken; exact h
  | resetEnd =>
    cases taken
    split
    · exact s.endReset_holdDownLawful
    · exact h

/-- Settles O9: the law of hold-down is kept by every command, by the engine's own take, and by the passing of time. -/
theorem stepKeepsHoldDownLaw : Obligations.StepKeepsHoldDownLaw := by
  unfold Obligations.StepKeepsHoldDownLaw
  intro s t h taken
  exact step_keeps (P := State.HoldDownLawful) (fun _ _ hs => hs) exec_keeps_holdDownLawful
    (fun _ hs => hs.passMicrosecond) h taken

end Sys2Proof.Machine
end

section
/-! PROOFS. The supply monitor, the movements of the supply and the device resets, and what a device reset shuts out. -/

namespace Sys2Proof.Machine

open Sys2Proof

/-! ## While a device reset lasts -/

/-- No request is taken while a device reset lasts (R134, R156). -/
theorem exec_request_inReset {s : State} (lasts : s.resetCtl.active = true) {i : Instr}
    (request : i.request?.isSome = true) : exec i s = .next s := by
  cases i with
  | readStatus | queryChannel | queryLease | listLeases | attach | detach | setMask | poll | claim | renew | renewAll | drive
  | release | configChannel | configStation | configClock | configSupply | clearFault | revoke | restart =>
    exact engineTake_reset lasts _ _ _
  | _ => cases request

theorem State.writeCycle_inReset {s : State} (lasts : s.resetCtl.active = true) (p : Station) (cycle : Port → Port) :
    s.writeCycle p cycle = s := by
  rw [State.writeCycle, if_pos lasts]

theorem State.readCycle_inReset {s : State} (lasts : s.resetCtl.active = true) (p : Station) (cycle : Port → Port) :
    s.readCycle p cycle = s.setPort p { s.port p with dataBus := none } := by
  rw [State.readCycle, if_pos lasts]

/-- Settles O22: a request is not taken, a cycle reaches no port, and each timed event asks first whether a device reset lasts. -/
theorem nothingHappensInReset : Obligations.NothingHappensInReset := by
  unfold Obligations.NothingHappensInReset
  intro s lasts
  have written (p : Station) (cycle : Port → Port) :
      (.next (s.writeCycle p cycle) : Host.Outcome State Fault Refusal) = .next s :=
    congrArg Host.Outcome.next (State.writeCycle_inReset lasts p cycle)
  have read (p : Station) (cycle : Port → Port) :
      (.next (s.readCycle p cycle) : Host.Outcome State Fault Refusal) = .next (s.setPort p { s.port p with dataBus := none }) :=
    congrArg Host.Outcome.next (State.readCycle_inReset lasts p cycle)
  have absent (t : State) : (.next (if s.resetCtl.active then s else t) : Host.Outcome State Fault Refusal) = .next s :=
    congrArg Host.Outcome.next (if_pos lasts)
  exact ⟨fun i request => exec_request_inReset lasts request,
    fun p _ _ => ⟨written p _, written p _, written p _, written p _, written p _⟩,
    fun p => ⟨read p _, read p _⟩,
    absent _, absent _, absent _, absent _, absent _, absent _,
    fun _ => ⟨absent _, absent _, absent _⟩,
    fun n => by rw [State.outPin, if_pos lasts],
    fun st => by rw [State.atnAsserted, lasts]; rfl⟩

/-! ## The movements of the supply -/

/-- Above the brownout level no device reset takes note of the supply (R134). -/
theorem State.supplyOnReset_above {s : State} {mv : Nat} (outside : s.resetCtl = .inactive) (above : 2700 ≤ mv) :
    s.supplyOnReset mv = { s with vdd := mv } := by
  have notBelow : ¬ mv < brownoutLevel := Nat.not_lt.2 above
  have notPower : ¬ mv < powerOnLevel := Nat.not_lt.2 (Nat.le_trans (by decide) above)
  have kept : (ResetControl.inactive.seeSupply mv).settleRelease s.rstPin = .inactive := by
    simp [ResetControl.seeSupply, ResetControl.settleRelease, ResetControl.inactive, notBelow, notPower]
  rw [State.supplyOnReset, outside, kept, ← outside]

/-- A movement of the supply outside a device reset and above the brownout level is the monitor's alone (R130, R131). -/
theorem State.supplyTo_above {s : State} {mv : Nat} (outside : s.resetCtl = .inactive) (above : 2700 ≤ mv) :
    s.supplyTo mv =
      { s with
        vdd := mv
        supply :=
          if s.vdd ≤ s.supply.riseLevel ∧ s.supply.riseLevel < mv then (s.supply.filterSees s.vdd mv).rise
          else s.supply.filterSees s.vdd mv } := by
  have level : (s.supply.filterSees s.vdd mv).riseLevel = s.supply.riseLevel := by
    unfold SupplyMonitor.filterSees
    repeat' split
    all_goals rfl
  have running : s.resetCtl.active = false := by rw [outside]; rfl
  simp only [State.supplyTo, State.supplyOnReset_above outside above, running, level, Bool.false_eq_true, if_false]

theorem SupplyMonitor.vt_le_riseLevel (m : SupplyMonitor) : m.vt ≤ m.riseLevel := Nat.le_add_right _ _

/-- At VT or above no filter runs (R130). -/
theorem SupplyMonitor.filterSees_above {m : SupplyMonitor} {old new : Nat} (above : m.vt ≤ new) :
    m.filterSees old new = { m with filter := none } := by
  rw [SupplyMonitor.filterSees, if_pos above]

/-- A fall below VT starts the filter (R130). -/
theorem SupplyMonitor.filterSees_falls {m : SupplyMonitor} {old new : Nat} (stood : m.vt ≤ old) (below : new < m.vt) :
    m.filterSees old new = { m with filter := some 0 } := by
  rw [SupplyMonitor.filterSees, if_neg (Nat.not_le.2 below), if_pos stood]

/-- A movement below VT leaves the filter as it is (R130). -/
theorem SupplyMonitor.filterSees_below {m : SupplyMonitor} {old new : Nat} (stood : old < m.vt) (below : new < m.vt) :
    m.filterSees old new = m := by
  rw [SupplyMonitor.filterSees, if_neg (Nat.not_le.2 below), if_neg (Nat.not_le.2 stood)]

/-- A rise in the terms of the claims (R131). -/
theorem SupplyMonitor.rise_eq (m : SupplyMonitor) :
    m.rise = if m.state = .low then { m with state := .recovering, recoveryTimer := some 0 } else m := by
  unfold SupplyMonitor.rise
  cases m.state <;> rfl

/-- A second rise has no effect: the first leaves no monitor LOW (R131). -/
theorem SupplyMonitor.rise_rise (m : SupplyMonitor) : m.rise.rise = m.rise := by
  rw [SupplyMonitor.rise_eq m]
  split
  · rfl
  · next notLow => rw [SupplyMonitor.rise_eq, if_neg notLow]

/-- A movement to below VT is the filter's alone (R130). -/
theorem State.supplyTo_belowVt {s : State} {mv : Nat} (outside : s.resetCtl = .inactive) (above : 2700 ≤ mv)
    (below : mv < s.supply.vt) :
    s.supplyTo mv = { s with vdd := mv, supply := s.supply.filterSees s.vdd mv } := by
  have noRise : ¬ (s.vdd ≤ s.supply.riseLevel ∧ s.supply.riseLevel < mv) := fun rises =>
    absurd (Nat.lt_trans below (Nat.lt_of_le_of_lt s.supply.vt_le_riseLevel rises.2)) (Nat.lt_irrefl mv)
  rw [State.supplyTo_above outside above, if_neg noRise]

/-- A movement to VT or above cancels the filter, and crossing the rise level is a rise (R130, R131). -/
theorem State.supplyTo_aboveVt {s : State} {mv : Nat} (outside : s.resetCtl = .inactive) (above : 2700 ≤ mv)
    (reaches : s.supply.vt ≤ mv) :
    s.supplyTo mv =
      { s with
        vdd := mv
        supply :=
          if s.vdd ≤ s.supply.riseLevel ∧ s.supply.riseLevel < mv then SupplyMonitor.rise { s.supply with filter := none }
          else { s.supply with filter := none } } := by
  rw [State.supplyTo_above outside above, SupplyMonitor.filterSees_above reaches]

/-- SUPPLY_RISE cancels the filter and is a rise wherever the supply stood (R130, R131). -/
theorem exec_supplyRise {s : State} {mv : Nat} (outside : s.resetCtl = .inactive) (above : 2700 ≤ mv)
    (rises : s.supply.riseLevel < mv) :
    exec (.supplyRise mv) s =
      .next { s with vdd := mv, supply := SupplyMonitor.rise { s.supply with filter := none } } := by
  have running : s.resetCtl.active = false := by rw [outside]; rfl
  have moved := State.supplyTo_aboveVt outside above (Nat.le_of_lt (Nat.lt_of_le_of_lt s.supply.vt_le_riseLevel rises))
  have level (m : SupplyMonitor) : m.rise.riseLevel = m.riseLevel := by rw [SupplyMonitor.rise_eq]; split <;> rfl
  have unfiltered : SupplyMonitor.riseLevel { s.supply with filter := none } = s.supply.riseLevel := rfl
  by_cases crosses : s.vdd ≤ s.supply.riseLevel
  · rw [if_pos ⟨crosses, rises⟩] at moved
    simp [exec, execSupplyRise, moved, running, level, unfiltered, rises, SupplyMonitor.rise_rise]
  · rw [if_neg fun both => crosses both.1] at moved
    simp [exec, execSupplyRise, moved, running, unfiltered, rises]

/-- Settles O56: a movement is what the filter sees of it, with a rise where it crosses the rise level or the event says so. -/
theorem supplyMovements : Obligations.SupplyMovements := by
  unfold Obligations.SupplyMovements
  intro s mv outside above
  refine ⟨fun stood below => ?_, fun stood below => ?_, fun reaches => ?_, fun rises => ?_⟩
  · rw [← SupplyMonitor.filterSees_falls stood below]
    exact congrArg Host.Outcome.next (State.supplyTo_belowVt outside above below)
  · have moved := State.supplyTo_belowVt outside above below
    rw [SupplyMonitor.filterSees_below stood below] at moved
    exact congrArg Host.Outcome.next moved
  · have moved := State.supplyTo_aboveVt outside above reaches
    rw [SupplyMonitor.rise_eq, ← ite_and, if_congr and_comm rfl rfl] at moved
    exact congrArg Host.Outcome.next moved
  · rw [exec_supplyRise outside above rises, SupplyMonitor.rise_eq]

/-! ## The timed events of the monitor -/

/-- Settles O57: each event is the monitor's own, with the SUPPLY cause entering or leaving where the state comes from or to NORMAL. -/
theorem supplyMonitorEvents : Obligations.SupplyMonitorEvents := by
  unfold Obligations.SupplyMonitorEvents
  intro s outside
  have lowTaken : exec .supplyLowEvent s = .next s.supplyLow := by
    simp only [exec, execSupplyLowEvent, outside, Bool.false_eq_true, if_false]
  have recoveryTaken : exec .recoveryExpiry s = .next s.recoveryExpiry := by
    simp only [exec, execRecoveryExpiry, outside, Bool.false_eq_true, if_false]
  rw [lowTaken, recoveryTaken]
  refine ⟨fun runs normal => ?_, fun runs notNormal => ?_, fun recovering present => ?_, fun notRecovering => ?_⟩
  · obtain ⟨time, filter⟩ := Option.ne_none_iff_exists'.1 runs
    refine ⟨_, rfl, ?_⟩
    simp only [State.supplyLow, filter, normal]
    exact State.enterHold_holdEntryOf _ .supply
  · obtain ⟨time, filter⟩ := Option.ne_none_iff_exists'.1 runs
    cases state : s.supply.state with
    | normal => exact absurd state notNormal
    | low => simp only [State.supplyLow, filter, state]
    | recovering => simp only [State.supplyLow, filter, state]
  · have held : s.causes.isEmpty = false := by simp [HoldCauses.isEmpty, present]
    simp only [State.recoveryExpiry, recovering]
    exact congrArg Host.Outcome.next (State.leaveHold_causesAre .supply held)
  · cases state : s.supply.state with
    | normal => simp only [State.recoveryExpiry, state]
    | low => simp only [State.recoveryExpiry, state]
    | recovering => exact absurd state notRecovering

/-! ## The device resets -/

/-- While a device reset lasts, or below the brownout level, the supply is the reset's alone (R134). -/
theorem State.supplyTo_inReset {s : State} {mv : Nat} (noted : s.resetCtl.active = true ∨ mv < 2700) :
    s.supplyTo mv = s.supplyOnReset mv := by
  have lasts : (s.supplyOnReset mv).resetCtl.active = true := by
    have seen : (s.resetCtl.seeSupply mv).active = true := by
      rw [ResetControl.seeSupply, Bool.or_eq_true, decide_eq_true_eq]; exact noted
    rw [State.supplyOnReset, ResetControl.settleRelease]
    repeat' split
    all_goals exact seen
  rw [State.supplyTo]
  exact if_pos lasts

/-- A fall below 2.70 V is a condition of the reset, met and held (R134, R135). -/
theorem ResetControl.seeSupply_below {r : ResetControl} {mv : Nat} (below : mv < 2700) :
    r.seeSupply mv =
      { r with
        active := true, supplyHeld := true, metPower := r.metPower || decide (mv < 1800), metBrownout := true } := by
  have low : mv < brownoutLevel := below
  simp only [ResetControl.seeSupply, low, decide_true, Bool.or_true, if_true]
  rfl

/-- From 2.70 V on, a movement of the supply meets no condition anew; what it makes of the condition held is the rest (R134). -/
theorem ResetControl.seeSupply_above {r : ResetControl} {mv : Nat} (above : 2700 ≤ mv) :
    r.seeSupply mv =
      { r with
        supplyHeld :=
          if 2800 < mv then false else r.supplyHeld || (decide (mv < 2800) && (r.metBrownout || r.metPower)) } := by
  have notBelow : ¬ mv < brownoutLevel := Nat.not_lt.2 above
  have notPower : ¬ mv < powerOnLevel := Nat.not_lt.2 (Nat.le_trans (by decide) above)
  simp only [ResetControl.seeSupply, notBelow, notPower, decide_false, Bool.or_false, if_false]
  rfl

/-- Above 2.80 V the supply's condition has cleared (R134). -/
theorem ResetControl.seeSupply_clears {r : ResetControl} {mv : Nat} (above : 2800 < mv) :
    r.seeSupply mv = { r with supplyHeld := false } := by
  rw [ResetControl.seeSupply_above (Nat.le_trans (by decide) above), if_pos above]

/-- The 2 ms do not run while a condition lasts, and outside a device reset (R134). -/
theorem ResetControl.settleRelease_stopped {r : ResetControl} {rst : Level}
    (lasts : r.active = false ∨ r.supplyHeld = true ∨ rst = .low) : r.settleRelease rst = { r with release := none } := by
  rcases lasts with idle | held | low
  · simp [ResetControl.settleRelease, idle]
  · simp [ResetControl.settleRelease, held]
  · simp [ResetControl.settleRelease, low]

/-- The 2 ms begin when the last condition has cleared (R134). -/
theorem ResetControl.settleRelease_begins {r : ResetControl} (active : r.active = true) (cleared : r.supplyHeld = false)
    (waits : r.release = none) : r.settleRelease .high = { r with release := some 0 } := by
  simp [ResetControl.settleRelease, active, cleared, waits]

/-- A movement of the supply that begins or holds a device reset, or leaves RST# holding it (R134). -/
theorem State.supplyTo_holds {s : State} {mv : Nat} {r : ResetControl} (noted : s.resetCtl.active = true ∨ mv < 2700)
    (seen : s.resetCtl.seeSupply mv = r) (held : r.supplyHeld = true ∨ s.rstPin = .low) :
    s.supplyTo mv = { s with vdd := mv, resetCtl := { r with release := none } } := by
  rw [State.supplyTo_inReset noted, State.supplyOnReset, seen, ResetControl.settleRelease_stopped (.inr held)]

/-- The supply monitor at the end of a device reset, in the terms of the claims (R136). -/
theorem SupplyMonitor.afterReset_eq (mv : Nat) :
    SupplyMonitor.afterReset mv =
      if 3000 < mv then { state := .recovering, threshold := 0, recoveryTimer := some 0, filter := none }
      else { state := .low, threshold := 0, recoveryTimer := none, filter := none } := rfl

/-- RESET_END ends a device reset whose 2 ms run (R134, R136). -/
theorem exec_resetEnd_ends {s : State} (runs : s.resetCtl.release ≠ none) : exec .resetEnd s = .next s.endReset := by
  obtain ⟨time, release⟩ := Option.ne_none_iff_exists'.1 runs
  simp only [exec, execResetEnd, release]

/-- RESET_END comes only while the 2 ms run (R134). -/
theorem exec_resetEnd_waits {s : State} (stopped : s.resetCtl.release = none) : exec .resetEnd s = .next s := by
  simp only [exec, execResetEnd, stopped]

/-- Settles O58: each event is what the reset sees of the supply or of RST#, with the 2 ms stopped or begun by what is left. -/
theorem deviceResetCompletes : Obligations.DeviceResetCompletes := by
  unfold Obligations.DeviceResetCompletes
  intro s
  refine ⟨fun mv below => ?falls, ?pulled, fun mv _ => rfl, fun mv active met above below => ?held, fun lasts => ?pinHigh,
    fun mv active low above => ?pinStillLow, fun active cleared waits => ?pinLast,
    fun mv active high waits above => ?supplyLast, exec_resetEnd_waits, fun runs => ?ends⟩
  case falls =>
    exact congrArg Host.Outcome.next (State.supplyTo_holds (.inr below) (ResetControl.seeSupply_below below) (.inl rfl))
  case pulled =>
    refine congrArg Host.Outcome.next ?_
    rw [State.pullReset, ResetControl.settleRelease_stopped (.inr (.inr rfl))]
  case held =>
    have seen : s.resetCtl.seeSupply mv = { s.resetCtl with supplyHeld := true } := by
      rw [ResetControl.seeSupply_above above]
      simp [below, met, Nat.not_lt.2 (Nat.le_of_lt below)]
    exact congrArg Host.Outcome.next (State.supplyTo_holds (.inl active) seen (.inl rfl))
  case pinHigh =>
    refine congrArg Host.Outcome.next ?_
    rw [State.releaseReset, ResetControl.settleRelease_stopped (lasts.imp_right .inl)]
  case pinStillLow =>
    exact congrArg Host.Outcome.next (State.supplyTo_holds (.inl active) (ResetControl.seeSupply_clears above) (.inr low))
  case pinLast =>
    refine congrArg Host.Outcome.next ?_
    rw [State.releaseReset, ResetControl.settleRelease_begins active cleared waits]
  case supplyLast =>
    refine congrArg Host.Outcome.next ?_
    rw [State.supplyTo_inReset (.inl active), State.supplyOnReset, ResetControl.seeSupply_clears above, high,
      ResetControl.settleRelease_begins (r := { s.resetCtl with supplyHeld := false }) active rfl waits]
  case ends =>
    rw [exec_resetEnd_ends runs, State.endReset, SupplyMonitor.afterReset_eq]
    rfl

/-! ## CONFIG_SUPPLY -/

/-- The filter after a new threshold `index`, with the supply at `mv` (R133): cancelled at the new VT or above; below it one that runs
runs on, and one that does not starts unless the monitor is LOW below the old VT too. -/
def SupplyMonitor.filterUnder (mv : Nat) (index : Fin 4) (m : SupplyMonitor) : Option Nat :=
  if thresholdOf index ≤ mv then none
  else if m.filter ≠ none then m.filter
  else if thresholdOf m.threshold ≤ mv ∨ m.state ≠ .low then some 0
  else none

/-- The judging of the supply against a new threshold (R133). -/
theorem SupplyMonitor.configure_eq (mv : Nat) (index : Fin 4) (m : SupplyMonitor) :
    m.configure mv index =
      if m.state = .low ∧ thresholdOf index + 50 < mv then
        { state := .recovering, threshold := index, recoveryTimer := some 0, filter := m.filterUnder mv index }
      else { m with threshold := index, filter := m.filterUnder mv index } := by
  have judged : m.configure mv index =
      if thresholdOf index + 50 < mv then
        SupplyMonitor.rise { m with threshold := index, filter := m.filterUnder mv index }
      else { m with threshold := index, filter := m.filterUnder mv index } := by
    unfold SupplyMonitor.configure SupplyMonitor.filterUnder
    cases m.filter <;> rfl
  rw [judged, SupplyMonitor.rise_eq, ← ite_and]
  exact if_congr and_comm rfl rfl

theorem SupplyMonitor.configure_threshold (mv : Nat) (index : Fin 4) (m : SupplyMonitor) :
    (m.configure mv index).threshold = index := by
  rw [SupplyMonitor.configure_eq]
  split <;> rfl

theorem SupplyMonitor.configure_filter (mv : Nat) (index : Fin 4) (m : SupplyMonitor) :
    (m.configure mv index).filter = m.filterUnder mv index := by
  rw [SupplyMonitor.configure_eq]
  split <;> rfl

/-- Settles O59: the monitor judges the supply against the new levels. -/
theorem configSupplyCompletes : Obligations.ConfigSupplyCompletes := by
  unfold Obligations.ConfigSupplyCompletes
  intro s st index k accepted number
  have filter := s.supply.configure_filter s.vdd k
  unfold SupplyMonitor.filterUnder at filter
  refine ⟨s.supply.configure s.vdd k, s.supply.configure_threshold s.vdd k, ?above, ?runs, ?starts, ?falls, ?stood, ?rises,
    ?stays, ?completes⟩
  case above =>
    intro above
    rw [filter, if_pos above]
  case runs =>
    intro below runs
    rw [filter, if_neg (Nat.not_le.2 below), if_pos runs]
  case starts =>
    intro below stopped notLow
    rw [filter, if_neg (Nat.not_le.2 below), if_neg (not_not.2 stopped), if_pos (.inr notLow)]
  case falls =>
    intro below stopped _ stood
    rw [filter, if_neg (Nat.not_le.2 below), if_neg (not_not.2 stopped), if_pos (.inl stood)]
  case stood =>
    intro below stopped low stood
    rw [filter, if_neg (Nat.not_le.2 below), if_neg (not_not.2 stopped),
      if_neg (not_or.2 ⟨Nat.not_le.2 stood, not_not.2 low⟩)]
  case rises =>
    intro low above
    rw [SupplyMonitor.configure_eq, if_pos ⟨low, above⟩]
    exact ⟨rfl, rfl⟩
  case stays =>
    intro noRise
    rw [SupplyMonitor.configure_eq, if_neg noRise]
    exact ⟨rfl, rfl⟩
  case completes =>
    obtain ⟨supervisor, -⟩ := firstRefusal_supervisor_of_none accepted.2
    refine .of_beginTake accepted.1 rfl ?_ rfl
    have supervisor : firstFailing ((s.beginTake st).supervisorChecks st) = none := supervisor
    simp only [configSupplyEffect, supervisor, indexOf4?_eq_some.2 number]
    rfl

end Sys2Proof.Machine
end

section
/-! PROOFS. The station ports: what each bus cycle makes of its port, by the state of the port, and the request that its bytes make. -/

namespace Sys2Proof.Machine

open Sys2Proof

/-! ## The cycles of one port, outside a device reset -/

theorem State.writeCycle_outside {s : State} (outside : s.resetCtl.active = false) (p : Station) (cycle : Port → Port) :
    s.writeCycle p cycle = s.setPort p (cycle (s.port p)) := by
  rw [State.writeCycle, outside, if_neg Bool.false_ne_true]

theorem State.readCycle_outside {s : State} (outside : s.resetCtl.active = false) (p : Station) (cycle : Port → Port) :
    s.readCycle p cycle = s.setPort p (cycle (s.port p)) := by
  rw [State.readCycle, outside, if_neg Bool.false_ne_true]

/-- A command that is a cycle writing to its port leaves what the cycle makes of that port. -/
theorem writes_next {s : State} (outside : s.resetCtl.active = false) {p : Station} {cycle : Port → Port} {q : Port}
    (becomes : cycle (s.port p) = q) :
    (.next (s.writeCycle p cycle) : Host.Outcome State Fault Refusal) = .next (s.setPort p q) := by
  rw [State.writeCycle_outside outside, becomes]

/-- A command that is a cycle reading its port leaves what the cycle makes of that port. -/
theorem reads_next {s : State} (outside : s.resetCtl.active = false) {p : Station} {cycle : Port → Port} {q : Port}
    (becomes : cycle (s.port p) = q) :
    (.next (s.readCycle p cycle) : Host.Outcome State Fault Refusal) = .next (s.setPort p q) := by
  rw [State.readCycle_outside outside, becomes]

/-! ## The bytes written to a port -/

/-- Outside QUEUED a command byte starts a request in an empty buffer (R145). -/
theorem Port.knownCommand_eq (q : Port) (code : RequestCode) :
    q.knownCommand code =
      if q.state = .queued then { q with error := .overrun }
      else
        { state := if expectedLength [code.toByte] = some 1 then .queued else .assembling
          request := [code.toByte]
          expected := expectedLength [code.toByte]
          reply := []
          readPos := 0
          error := if q.state = .assembling then .truncated else q.error
          dataBus := q.dataBus } := by
  obtain ⟨state, request, expected, reply, readPos, error, dataBus⟩ := q
  cases state with
  | idle | assembling | queued | reply => rfl

/-- In ASSEMBLING a data byte joins the request (R147). -/
theorem Port.dataCycle_eq (q : Port) (b : Byte) :
    q.dataCycle b =
      if q.state = .assembling then
        { q with
          state := if expectedLength (q.request ++ [b]) = some (q.request.length + 1) then .queued else .assembling
          request := q.request ++ [b]
          expected := expectedLength (q.request ++ [b]) }
      else { q with error := if q.state = .queued then .overrun else .stray } := by
  obtain ⟨state, request, expected, reply, readPos, error, dataBus⟩ := q
  cases state with
  | assembling =>
    change Port.holding _ (request ++ [b]) = _
    rw [Port.holding, List.length_append]
    rfl
  | idle | queued | reply => rfl

/-- Outside QUEUED an unknown command byte is answered by the port (R148). -/
theorem Port.unknownCommand_eq (q : Port) :
    q.unknownCommand =
      if q.state = .queued then { q with error := .overrun }
      else
        { state := .reply
          request := []
          expected := none
          reply := [0x10#8]
          readPos := 0
          error := if q.state = .assembling then .truncated else q.error
          dataBus := q.dataBus } := by
  obtain ⟨state, request, expected, reply, readPos, error, dataBus⟩ := q
  cases state with
  | idle | assembling | queued | reply => rfl

/-- A byte that names no request and is no control byte is an unknown command byte (R144). -/
theorem Port.commandCycle_unknown {p : Station} {b : Byte} (unknown : (Instr.unknownCommandByte p b).wellFormed = true)
    (q : Port) : q.commandCycle b = q.unknownCommand := by
  obtain ⟨⟨nameless, notAbort⟩, notReplay⟩ :
      (RequestCode.ofByte? b = none ∧ b ≠ abortByte) ∧ b ≠ replayByte := by
    simpa [Instr.wellFormed] using unknown
  rw [Port.commandCycle, if_neg notAbort, if_neg notReplay, nameless]

/-- ABORT keeps of a port its error and the byte on its data bus (R151). -/
theorem Port.abortCycle_eq (q : Port) :
    q.abortCycle =
      { state := .idle
        request := []
        expected := none
        reply := []
        readPos := 0
        error := if q.state = .queued then .withdrawn else q.error
        dataBus := q.dataBus } := by
  obtain ⟨state, request, expected, reply, readPos, error, dataBus⟩ := q
  cases state with
  | idle | assembling | queued | reply => rfl

/-- REPLAY has a reply to return to in REPLY alone (R150). -/
theorem Port.replayCycle_eq (q : Port) :
    q.replayCycle = if q.state = .reply then { q with readPos := 0 } else { q with error := .stray } := by
  obtain ⟨state, request, expected, reply, readPos, error, dataBus⟩ := q
  cases state with
  | idle | assembling | queued | reply => rfl

/-- Settles O16: the cycle of a command byte that names a request. -/
theorem commandByteTaken : Obligations.CommandByteTaken := by
  unfold Obligations.CommandByteTaken
  intro s p code outside
  exact writes_next outside (Port.knownCommand_eq _ code)

/-- Settles O17: the cycle of a data byte. -/
theorem dataByteTaken : Obligations.DataByteTaken := by
  unfold Obligations.DataByteTaken
  intro s p b outside
  exact writes_next outside (Port.dataCycle_eq _ b)

/-- Settles O18: a byte that names nothing goes through the command position as an unknown command byte. -/
theorem unknownCommandByteTaken : Obligations.UnknownCommandByteTaken := by
  unfold Obligations.UnknownCommandByteTaken
  intro s p b unknown outside
  exact writes_next outside ((Port.commandCycle_unknown unknown _).trans (Port.unknownCommand_eq _))

/-- Settles O19: the cycle of ABORT. -/
theorem abortTaken : Obligations.AbortTaken := by
  unfold Obligations.AbortTaken
  intro s p outside
  exact writes_next outside (Port.abortCycle_eq _)

/-- Settles O20: the cycle of REPLAY. -/
theorem replayTaken : Obligations.ReplayTaken := by
  unfold Obligations.ReplayTaken
  intro s p outside
  exact writes_next outside (Port.replayCycle_eq _)

/-! ## The two reads -/

theorem PortState.code_lt (state : PortState) : state.code < 4 := by cases state <;> decide
theorem PortError.code_lt (error : PortError) : error.code < 8 := by cases error <;> decide

theorem Port.more_iff {q : Port} : q.more = true ↔ q.state = .reply ∧ q.readPos < q.reply.length := by
  rw [Port.more, Bool.and_eq_true, beq_iff_eq, decide_eq_true_eq]

theorem State.holdDown_eq_false {s : State} : s.holdDown = false ↔ s.causes = ⟨false, false⟩ := by
  rw [State.holdDown, Bool.not_eq_false', HoldCauses.isEmpty_iff]

/-- The fields of a port status byte stand at bits of their own, so the byte is their sum (R169). -/
theorem statusFields_add : ∀ (state : Fin 4) (error : Fin 8) (more atn hold : Bool),
    byteOf (state.val + 32 * error.val) ||| bitAt more 2 ||| bitAt atn 3 ||| bitAt hold 4 =
      BitVec.ofNat 8 (state.val + (if more = true then 4 else 0) + (if atn = true then 8 else 0) +
        (if hold = false then 0 else 16) + 32 * error.val) := by
  decide

/-- The port status byte as its fields add up (R154, R169). -/
theorem State.portStatusByte_eq (s : State) (p : Station) :
    s.portStatusByte p =
      BitVec.ofNat 8 ((s.port p).state.code +
        (if (s.port p).state = .reply ∧ (s.port p).readPos < (s.port p).reply.length then 4 else 0) +
        (if s.atnCondition p = true then 8 else 0) + (if s.causes = ⟨false, false⟩ then 0 else 16) +
        32 * (s.port p).error.code) := by
  simp only [← Port.more_iff, ← State.holdDown_eq_false]
  exact statusFields_add ⟨_, PortState.code_lt _⟩ ⟨_, PortError.code_lt _⟩ _ _ _

/-- A data read in REPLY drives the next unread byte of the reply (R149). -/
theorem Port.dataReadCycle_unread {q : Port} {b : Byte} (reply : q.state = .reply) (unread : q.reply[q.readPos]? = some b) :
    q.dataReadCycle = { q with readPos := q.readPos + 1, dataBus := some b } := by
  rw [Port.dataReadCycle, reply]
  dsimp only
  rw [unread]

/-- A data read with nothing unread drives 0x00 and records EMPTY (R149). -/
theorem Port.dataReadCycle_empty {q : Port} (empty : q.state ≠ .reply ∨ q.reply.length ≤ q.readPos) :
    q.dataReadCycle = { q with error := .empty, dataBus := some 0x00#8 } := by
  unfold Port.dataReadCycle
  cases state : q.state with
  | idle | assembling | queued => rfl
  | reply =>
    have read : q.reply.length ≤ q.readPos := empty.resolve_left (not_not.2 state)
    dsimp only
    rw [List.getElem?_eq_none read]

/-- Settles O21: the status byte is the sum of its fields, and a data read turns on whether a byte of the reply is unread. -/
theorem portReads : Obligations.PortReads := by
  unfold Obligations.PortReads
  intro s p outside
  refine ⟨?status, fun b reply unread => ?next, fun empty => ?empty⟩
  case status =>
    rw [← State.portStatusByte_eq]
    exact reads_next outside rfl
  case next => exact reads_next outside (Port.dataReadCycle_unread reply unread)
  case empty => exact reads_next outside (Port.dataReadCycle_empty empty)

end Sys2Proof.Machine
end

section
/-! PROOFS. The requests byte by byte: how far a beginning of a request tells its length, and the port that its bytes are written to. -/

namespace Sys2Proof.Machine

open Sys2Proof

/-! ## The length of a request -/

theorem announced_le (count : Byte) : announced count ≤ 8 := by
  unfold announced
  split
  · next range => exact range.2
  · exact Nat.zero_le 8

/-- The longest requests are a CLAIM of eight channels and a DRIVE of eight entries (R146). -/
theorem expectedLength_le {bytes : List Byte} {n : Nat} (known : expectedLength bytes = some n) : n ≤ 27 := by
  cases bytes with
  | nil => cases known
  | cons command fields =>
    unfold expectedLength at known
    dsimp only at known
    cases code : RequestCode.ofByte? command with
    | none => rw [code] at known; cases known
    | some c =>
      rw [code] at known
      cases c with
      | claim | drive =>
        dsimp only at known
        split at known
        · next count _ =>
          have atMost := announced_le count
          have total := Option.some.inj known
          omega
        · cases known
      | _ => cases known; decide

/-- A byte that stands in a beginning of a list stands there in the whole. -/
theorem getElem?_of_prefix {pre whole : List Byte} (begins : pre <+: whole) {k : Nat} {b : Byte} (stands : pre[k]? = some b) :
    whole[k]? = some b := by
  obtain ⟨rest, rfl⟩ := begins
  exact List.getElem?_append_left (List.getElem?_eq_some_iff.1 stands).1 ▸ stands

/-- Once the length of a request is known, later bytes do not change it (R146). -/
theorem expectedLength_of_prefix {pre whole : List Byte} (begins : pre <+: whole) {n : Nat}
    (known : expectedLength pre = some n) : expectedLength whole = some n := by
  cases pre with
  | nil => cases known
  | cons command fields =>
    obtain ⟨rest, rfl⟩ := begins
    have later : fields <+: fields ++ rest := ⟨rest, rfl⟩
    rw [List.cons_append]
    unfold expectedLength at known ⊢
    dsimp only at known ⊢
    cases code : RequestCode.ofByte? command with
    | none => rw [code] at known; cases known
    | some c =>
      rw [code] at known
      cases c with
      | claim | drive =>
        dsimp only at known ⊢
        split at known
        · next count stands => rw [getElem?_of_prefix later stands]; exact known
        · cases known
      | _ => exact known

/-- No shorter beginning of a whole request is itself a whole one: its length would be that of the whole (R146). -/
theorem expectedLength_shorter {pre whole : List Byte} (complete : expectedLength whole = some whole.length)
    (begins : pre <+: whole) (shorter : pre.length < whole.length) : expectedLength pre ≠ some pre.length := by
  intro reached
  have same : some whole.length = some pre.length := complete.symm.trans (expectedLength_of_prefix begins reached)
  exact absurd (Option.some.inj same) (Nat.ne_of_gt shorter)

/-- Settles O14: a beginning whose length is reached would be the whole. -/
theorem requestEndsAtLastByte : Obligations.RequestEndsAtLastByte := by
  unfold Obligations.RequestEndsAtLastByte
  intro i st bytes wellFormed request
  have complete := expectedLength_requestBytes wellFormed request
  refine ⟨complete, expectedLength_le complete, fun k shorter => ?_⟩
  have length : (bytes.take k).length = k := List.length_take_of_le (Nat.le_of_lt shorter)
  have unreached := expectedLength_shorter complete (List.take_prefix k bytes) (length.symm ▸ shorter)
  rwa [length] at unreached

/-! ## A request written to its port -/

theorem State.setPort_setPort (s : State) (p : Station) (x y : Port) : (s.setPort p x).setPort p y = s.setPort p y := by
  rw [State.setPort, State.setPort, State.setPort, State.mk.injEq]
  simp only [Vector.set_set, and_self]

theorem State.port_setPort_self (s : State) (p : Station) (x : Port) : (s.setPort p x).port p = x := by
  rw [State.port_setPort, if_pos rfl]

/-- A command byte to a port that is IDLE or in REPLY empties it and begins a request (R145). -/
theorem Port.knownCommand_begins {q : Port} (free : q.state = .idle ∨ q.state = .reply) (code : RequestCode) :
    q.knownCommand code = q.discard.holding [code.toByte] := by
  unfold Port.knownCommand
  rcases free with idle | reply
  · rw [idle]
  · rw [reply]

/-- A data byte joins a request that is not yet whole (R147). -/
theorem Port.dataCycle_holding {q : Port} {bytes : List Byte} (partly : expectedLength bytes ≠ some bytes.length) (b : Byte) :
    (q.holding bytes).dataCycle b = q.holding (bytes ++ [b]) := by
  have assembling : q.holding bytes = { q with state := .assembling, request := bytes, expected := expectedLength bytes } := by
    rw [Port.holding, if_neg partly]
  rw [assembling]
  rfl

/-- A port with a beginning of a request takes the remaining bytes one after another, and holds the whole (R146, R147). -/
theorem runCommands_dataBytes {s : State} (outside : s.resetCtl.active = false) (p : Station) (q : Port) (rest : List Byte) :
    ∀ written : List Byte, expectedLength (written ++ rest) = some (written ++ rest).length →
      runCommands (rest.map (.dataByte p)) (s.setPort p (q.holding written)) =
        some (s.setPort p (q.holding (written ++ rest))) := by
  induction rest with
  | nil => intro written _; rw [List.append_nil]; rfl
  | cons b rest ih =>
    intro written complete
    have partly : expectedLength written ≠ some written.length :=
      expectedLength_shorter complete (List.prefix_append _ _) (by rw [List.length_append, List.length_cons]; omega)
    have joins : exec (.dataByte p b) (s.setPort p (q.holding written)) =
        .next (s.setPort p (q.holding (written ++ [b]))) := by
      rw [← s.setPort_setPort p (q.holding written) (q.holding (written ++ [b]))]
      refine writes_next (s := s.setPort p (q.holding written)) outside ?_
      rw [State.port_setPort_self, Port.dataCycle_holding partly]
    rw [List.append_cons] at complete ⊢
    rw [List.map_cons, runCommands, joins]
    exact ih (written ++ [b]) complete

/-- Settles O15: the command byte begins the request in an emptied port, and the data bytes complete it there. -/
theorem writtenRequestIsQueued : Obligations.WrittenRequestIsQueued := by
  unfold Obligations.WrittenRequestIsQueued
  intro s i st code fields wellFormed request outside free
  have complete := expectedLength_requestBytes wellFormed request
  have begins : exec (.commandByte st code) s = .next (s.setPort st ((s.port st).discard.holding [code.toByte])) :=
    writes_next outside (Port.knownCommand_begins free code)
  rw [runCommands, begins]
  refine (runCommands_dataBytes outside st _ fields [code.toByte] complete).trans ?_
  rw [List.singleton_append, Port.holding, if_pos complete, complete]
  rfl

end Sys2Proof.Machine
end

section
/-! PROOFS. What the part does of itself: the port its arbiter takes, the request that waits there, and one microsecond where none waits. -/

namespace Sys2Proof.Machine

open Sys2Proof

/-! ## The arbiter -/

/-- The ports in the order of a rotation that begins after the port last served (R156). -/
def rotation (pointer : Station) : List Station := [pointer + 1, pointer + 2, pointer + 3, pointer]

/-- The place of a port in that order. -/
def rotationPlace (pointer p : Station) : Nat := (p - pointer - 1).val

theorem State.arbiterChoice_outside {s : State} (outside : s.resetCtl.active = false) :
    s.arbiterChoice = (rotation s.pointer).find? fun p => (s.port p).state == .queued := by
  rw [State.arbiterChoice, outside, if_neg Bool.false_ne_true, rotation]

theorem mem_rotation : ∀ pointer p : Station, p ∈ rotation pointer := by decide

theorem rotation_pairwise : ∀ pointer : Station,
    (rotation pointer).Pairwise fun p q => rotationPlace pointer p < rotationPlace pointer q := by
  decide

/-- The first of a list in the order of `rank` that has a property is the one of least rank that has it. -/
theorem find?_eq_some_of_pairwise {α : Type} (rank : α → Nat) (has : α → Bool) {x : α} :
    ∀ {l : List α}, l.Pairwise (fun a b => rank a < rank b) →
      (l.find? has = some x ↔ x ∈ l ∧ has x = true ∧ ∀ y ∈ l, has y = true → rank x ≤ rank y)
  | [], _ => by simp
  | a :: l, ordered => by
    obtain ⟨first, ordered⟩ := List.pairwise_cons.1 ordered
    cases found : has a with
    | true =>
      rw [List.find?_cons_of_pos found, Option.some.injEq]
      constructor
      · rintro rfl
        exact ⟨List.mem_cons_self, found, List.forall_mem_cons.2 ⟨fun _ => le_rfl, fun y hy _ => (first y hy).le⟩⟩
      · rintro ⟨hx, -, least⟩
        rcases List.mem_cons.1 hx with rfl | later
        · rfl
        · exact absurd (least a List.mem_cons_self found) (first x later).not_ge
    | false =>
      have skip : has a ≠ true := Bool.eq_false_iff.1 found
      rw [List.find?_cons_of_neg skip, find?_eq_some_of_pairwise rank has ordered]
      constructor
      · rintro ⟨hx, hasX, least⟩
        exact ⟨List.mem_cons_of_mem a hx, hasX, List.forall_mem_cons.2 ⟨fun h => absurd h skip, least⟩⟩
      · rintro ⟨hx, hasX, least⟩
        refine ⟨(List.mem_cons.1 hx).resolve_left ?_, hasX, (List.forall_mem_cons.1 least).2⟩
        rintro rfl
        exact skip hasX

/-- Settles O23: the ports stand in the rotation by their places, and the arbiter takes the first that is QUEUED. -/
theorem arbiterServesInRotation : Obligations.ArbiterServesInRotation := by
  unfold Obligations.ArbiterServesInRotation
  intro s outside
  rw [State.arbiterChoice_outside outside]
  refine ⟨fun st => ?choice, ?idle⟩
  case choice =>
    rw [find?_eq_some_of_pairwise (rotationPlace s.pointer) _ (rotation_pairwise s.pointer)]
    simp only [mem_rotation, true_and, forall_const, beq_iff_eq, rotationPlace]
  case idle =>
    simp only [List.find?_eq_none, mem_rotation, forall_const, beq_iff_eq, ne_eq]

/-! ## The request that waits in a port -/

theorem RequestCode.ofByte?_toByte (code : RequestCode) : RequestCode.ofByte? code.toByte = some code := by
  cases code <;> rfl

theorem append_wordBytes (w : Word) : w.extractLsb' 8 8 ++ w.extractLsb' 0 8 = w :=
  (BitVec.extractLsb'_append_extractLsb'_eq_extractLsb' (h := rfl)).trans BitVec.extractLsb'_eq_self

theorem entriesOf?_entryBytes (entries : List DriveEntry) : entriesOf? (entries.flatMap entryBytes) = some entries := by
  induction entries with
  | nil => rfl
  | cons e rest ih =>
    rw [List.flatMap_cons, entryBytes, List.cons_append, List.cons_append, List.cons_append, List.nil_append, entriesOf?, ih]

/-- The bytes of a well-formed request spell it (R164, R167). -/
theorem decodeRequest_request {i : Instr} {st : Station} {bytes : List Byte} (wellFormed : i.wellFormed = true)
    (request : i.request? = some (st, bytes)) : decodeRequest st bytes = some i := by
  cases i <;> simp only [Instr.request?, Option.some.injEq, Prod.mk.injEq, reduceCtorEq] at request <;>
    obtain ⟨rfl, rfl⟩ := request
  case claim options term warnMargin count channels =>
    have length : channels.length = announced count := beq_iff_eq.1 wellFormed
    unfold decodeRequest
    simp only [RequestCode.ofByte?_toByte, wordBytes, List.cons_append, List.nil_append, length, if_true, append_wordBytes]
  case drive handle count entries =>
    have length : entries.length = announced count := beq_iff_eq.1 wellFormed
    unfold decodeRequest
    simp only [RequestCode.ofByte?_toByte, entriesOf?_entryBytes, length, if_true]
  case renew handle newTerm =>
    unfold decodeRequest
    simp only [RequestCode.ofByte?_toByte, wordBytes, append_wordBytes]
  all_goals rfl

theorem State.Ready.nextTake {s : State} {i : Instr} {st : Station} (ready : s.Ready i st) : s.nextTake = some i := by
  obtain ⟨wellFormed, request, -, -, bytes, choice⟩ := ready
  have spelled := decodeRequest_request wellFormed request
  rw [State.nextTake, choice]
  dsimp only
  rw [bytes, spelled]

/-- The part one microsecond on, as the statement has it, is the model's. -/
theorem State.oneLater_eq (s : State) : s.oneLater = s.advanceTimers := by
  have prescale : s.clock.prescale + (if s.clock.source = .internal then 1 else 0) =
      if s.clock.source = .internal then s.clock.prescale + 1 else s.clock.prescale := by
    split <;> rfl
  unfold State.oneLater State.advanceTimers
  split
  · rfl
  · rw [prescale, State.mapChannels]
    rfl

/-- A checker's law says of its timers only whether they run. -/
theorem Channel.CheckerLawful.advance {c : Channel} (h : c.CheckerLawful) : c.advance.CheckerLawful := by
  obtain ⟨stopped, inactive, suspended, settle, mismatch, agrees, disagrees⟩ := h
  exact ⟨stopped, inactive, suspended, advanceTimer_ne_none.trans settle, advanceTimer_ne_none.trans mismatch, agrees,
    disagrees⟩

theorem State.channel_advanceTimers {s : State} (outside : s.resetCtl.active = false) (n : ChannelNo) :
    s.advanceTimers.channel n = (s.channel n).advance := by
  have table : s.advanceTimers.channels = (s.mapChannels fun _ c => c.advance).channels := by
    rw [State.advanceTimers, outside, if_neg Bool.false_ne_true]
  rw [State.channel, table]
  exact s.channel_mapChannels _ n

theorem State.advanceTimers_resetCtl_active (s : State) : s.advanceTimers.resetCtl.active = s.resetCtl.active := by
  unfold State.advanceTimers
  split
  · rfl
  · simp only [State.mapChannels_resetCtl]

theorem State.ClockSupplyLawful.advanceTimers {s : State} (h : s.ClockSupplyLawful) : s.advanceTimers.ClockSupplyLawful := by
  unfold State.advanceTimers
  split
  · exact h.of_same ⟨rfl, rfl, rfl, rfl⟩
  · have causes : s.causes = causesOf s.supply.advance s.clock.passTime := h.causes
    exact ⟨h.clock.passTime, h.supply.advance, by simpa only [State.mapChannels_causes] using causes,
      by simpa only [State.mapChannels_restartCount] using h.restarts⟩

theorem State.TimeLawful.advanceTimers {s : State} (h : s.TimeLawful) : s.advanceTimers.TimeLawful := by
  obtain ⟨checkers, others⟩ := h
  refine ⟨fun outside n => ?_, State.clockSupplyLawful_iff.1 (State.clockSupplyLawful_iff.2 others).advanceTimers⟩
  rw [State.advanceTimers_resetCtl_active] at outside
  rw [State.channel_advanceTimers outside]
  exact (checkers outside n).advance

/-- One microsecond takes what comes due in it, until none is due. -/
theorem State.TimeLawful.passMicrosecond_takes {s : State} (h : s.TimeLawful) : TakesDue s.oneLater s.passMicrosecond := by
  rw [State.oneLater_eq]
  exact takeDue_takes mostDue _ h.advanceTimers ((List.toFinset_card_le _).trans (State.due_length_le _))

/-- Settles O2: with nothing in the queue the part takes the request that its choice spells, or else a microsecond passes. -/
theorem emptyQueueTakesChoice : Obligations.EmptyQueueTakesChoice := by
  unfold Obligations.EmptyQueueTakesChoice
  have idle {s : State} (empty : s.pending = []) : step s = s.idle := by rw [step, empty]
  constructor
  · intro s i st empty ready
    rw [idle empty, State.idle, ready.nextTake]
  · intro s checkers causes ranges empty unqueued
    have nothing : s.nextTake = none := by rw [State.nextTake, unqueued]
    exact ⟨s.passMicrosecond, by rw [idle empty, State.idle, nothing],
      State.TimeLawful.passMicrosecond_takes ⟨checkers, causes, ranges⟩⟩

end Sys2Proof.Machine
end

section
/-! PROOFS. The query of the part: READ_STATUS reports as R168 lays its reply out. -/

namespace Sys2Proof.Machine

open Sys2Proof

/-! ## READ_STATUS -/

/-- The hold-down causes as their bits add up (R168). -/
theorem HoldCauses.toByte_eq (c : HoldCauses) :
    c.toByte = BitVec.ofNat 8 ((if c.supply then 1 else 0) + if c.clock then 2 else 0) := by
  obtain ⟨supply, clock⟩ := c
  revert supply clock
  decide

/-- The leases in use are the slots that are not FREE (R158). -/
theorem State.countLeases_all (s : State) :
    (s.countLeases fun _ => true) = (List.finRange 24).countP fun i => (s.leaseAt i).isSome := by
  simp only [State.countLeases_eq, Option.any_true]

/-- The fields of the part in the layout of R168. -/
theorem State.statusFields_eq (s : State) :
    s.statusFields =
      [BitVec.ofNat 8 ((if s.causes.supply then 1 else 0) + if s.causes.clock then 2 else 0),
        s.supply.state.toByte, s.clock.state.toByte,
        s.clock.tickCounter.extractLsb' 8 8, s.clock.tickCounter.extractLsb' 0 8,
        BitVec.ofNat 8 ((List.finRange 24).countP fun i => (s.leaseAt i).isSome),
        BitVec.ofNat 8 ((List.finRange 24).countP fun i => (s.leaseAt i).any Lease.isPending),
        BitVec.ofNat 8 s.faultedCount, s.lastReset.toByte, BitVec.ofNat 8 s.restartCount, s.clock.echo] := by
  rw [State.statusFields, HoldCauses.toByte_eq, twoBytes_toNat, State.countLeases_all, State.countLeases_eq]
  rfl

/-- Settles O25: the reply is the part's own fields, and the effect has no check and leaves the state. -/
theorem readStatusReports : Obligations.ReadStatusReports := by
  unfold Obligations.ReadStatusReports
  intro s st ready
  have effect : readStatusEffect (s.beginTake st) = (s.beginTake st, 0x00#8 :: s.statusFields) := rfl
  rw [State.statusFields_eq] at effect
  exact .of_effect ready rfl effect ⟨rfl, rfl⟩ (.beginTake s st)

end Sys2Proof.Machine
end

section
/-! PROOFS. The request formats: a request's bytes read back as the request, and four layouts of R167. -/

namespace Sys2Proof.Machine

open Sys2Proof

/-- Settles O12: the command byte names its request, and each field stands where its layout places it. -/
theorem requestRoundTrip : Obligations.RequestRoundTrip := by
  unfold Obligations.RequestRoundTrip
  intro i st bytes wellFormed request
  exact decodeRequest_request wellFormed request

/-- Settles O13: the four buffers are the bytes of the requests they spell, which read back as these. -/
theorem requestLayouts : Obligations.RequestLayouts := by
  unfold Obligations.RequestLayouts
  refine ⟨?claim, ?renew, ?drive, ?configStation⟩
  all_goals exact requestRoundTrip _ _ _ rfl rfl

end Sys2Proof.Machine
end

section
/-! PROOFS. The machine as a whole: a step runs the front of the queue, every command answers a next state, and no command touches the
queue. -/

namespace Sys2Proof.Machine

open Sys2Proof

/-! ## The step -/

/-- Settles O1: a queue that is not empty is the second case of the step. -/
theorem stepRunsFrontCommand : Obligations.StepRunsFrontCommand := by
  unfold Obligations.StepRunsFrontCommand
  intro s c rest
  rfl

/-- Settles O3: a request is answered by the engine's take, and every other command gives its next state outright. -/
theorem everyCommandAnswers : Obligations.EveryCommandAnswers := by
  unfold Obligations.EveryCommandAnswers
  intro i s
  cases i with
  | readStatus | queryChannel | queryLease | listLeases | attach | detach | setMask | poll | claim | renew | renewAll | drive | release
  | configChannel | configStation | configClock | configSupply | clearFault | revoke | restart => exact engineTake_answers _ _ _ s
  | deviceReset condition | lastResetConditionClears condition => cases condition <;> exact ⟨_, rfl⟩
  | commandByte | dataByte | unknownCommandByte | abort | replay | statusRead | dataRead | leaseTick | leaseExpiry | pulseEnd | frameStart
  | senseChange | settleEnd | senseFault | qualifyingEdge | silenceExpiry | supplyBelowVt | supplyAboveVt | supplyLowEvent | supplyRise
  | recoveryExpiry | resetEnd => exact ⟨_, rfl⟩

/-! ## The queue under the shared operations -/

theorem SameBesideTables.pending_eq {s t : State} (h : SameBesideTables s t) : t.pending = s.pending := by
  obtain ⟨-, -, -, -, -, -, -, -, -, pending⟩ := h
  exact pending

theorem SameBesidePorts.pending_eq {s t : State} (h : SameBesidePorts s t) : t.pending = s.pending := by
  obtain ⟨-, -, -, -, -, -, -, -, -, -, pending⟩ := h
  exact pending

@[simp] theorem State.lapse_pending (s : State) (p : SlotNo → Bool) (cause : LapseCause) :
    (s.lapse p cause).pending = s.pending := by
  obtain ⟨⟨-, -, -, frame⟩, -⟩ := s.lapse_spec p cause
  exact frame.pending_eq

@[simp] theorem State.free_pending (s : State) (p : SlotNo → Bool) : (s.free p).pending = s.pending := by
  obtain ⟨⟨-, -, -, frame⟩, -⟩ := s.free_spec p
  exact frame.pending_eq

@[simp] theorem State.makeHeld_pending (s : State) (i : SlotNo) : (s.makeHeld i).pending = s.pending :=
  (s.makeHeld_frame i).2.pending_eq

@[simp] theorem State.grantEvaluation_pending (s : State) : s.grantEvaluation.pending = s.pending :=
  s.grantEvaluation_frame.pending_eq

@[simp] theorem State.evaluateIf_pending (s : State) (triggered : Bool) : (s.evaluateIf triggered).pending = s.pending :=
  (s.evaluateIf_frame triggered).pending_eq

@[simp] theorem State.enterHold_pending (s : State) (k : HoldCause) : (s.enterHold k).pending = s.pending := by
  cases empty : s.causes.isEmpty with
  | true => rw [State.enterHold_first k empty, State.lapse_pending]
  | false => rw [State.enterHold_joins k empty]

@[simp] theorem State.leaveHold_pending (s : State) (k : HoldCause) : (s.leaveHold k).pending = s.pending := by
  unfold State.leaveHold
  dsimp only
  split
  · exact State.grantEvaluation_pending _
  · rfl

/-! ## The queue under the events -/

@[simp] theorem State.expireDue_pending (s : State) : s.expireDue.pending = s.pending := by simp [State.expireDue]

@[simp] theorem State.leaseTick_pending (s : State) : s.leaseTick.pending = s.pending := by
  simp [State.leaseTick, State.countTick]

@[simp] theorem State.internalTick_pending (s : State) : s.internalTick.pending = s.pending := by
  unfold State.internalTick
  split
  · exact State.leaseTick_pending _
  · rfl

@[simp] theorem State.takeEdge_pending (s : State) : s.takeEdge.pending = s.pending := by
  unfold State.takeEdge
  split
  · unfold State.countEdge
    dsimp only
    split
    · exact State.leaseTick_pending _
    · rfl
  · exact State.leaveHold_pending _ .clock

@[simp] theorem State.silenceExpiry_pending (s : State) : s.silenceExpiry.pending = s.pending := by
  unfold State.silenceExpiry
  split
  · rfl
  · exact State.enterHold_pending _ .clock

@[simp] theorem State.startFrame_pending (s : State) : s.startFrame.pending = s.pending := by simp [State.startFrame]

@[simp] theorem State.senseFault_pending (s : State) (n : ChannelNo) : (s.senseFault n).pending = s.pending := by
  unfold State.senseFault State.takeFault
  split
  · split
    · simp [State.raiseFault]
    · rfl
    · rfl
  · rfl

@[simp] theorem State.supplyLow_pending (s : State) : s.supplyLow.pending = s.pending := by
  unfold State.supplyLow
  split
  · rfl
  · dsimp only
    split
    · exact State.enterHold_pending _ .supply
    · rfl
    · rfl

@[simp] theorem State.recoveryExpiry_pending (s : State) : s.recoveryExpiry.pending = s.pending := by
  unfold State.recoveryExpiry
  split
  · exact State.leaveHold_pending _ .supply
  · rfl
  · rfl

@[simp] theorem State.supplyTo_pending (s : State) (mv : Nat) : (s.supplyTo mv).pending = s.pending := by
  unfold State.supplyTo
  dsimp only
  split <;> rfl

@[simp] theorem State.writeCycle_pending (s : State) (p : Station) (cycle : Port → Port) :
    (s.writeCycle p cycle).pending = s.pending := by
  unfold State.writeCycle
  split <;> rfl

@[simp] theorem State.readCycle_pending (s : State) (p : Station) (cycle : Port → Port) :
    (s.readCycle p cycle).pending = s.pending := by
  unfold State.readCycle
  split <;> rfl

/-! ## The queue under the requests -/

@[simp] theorem refuse_state (s : State) (status : Status) : (refuse s status).1 = s := rfl

@[simp] theorem accept_state (s : State) (fields : List Byte) : (accept s fields).1 = s := rfl

/-- The effect of a request leaves the queue of commands as it was. -/
def KeepsQueue (effect : State → Answer) : Prop := ∀ w, (effect w).1.pending = w.pending

/-- A request whose effect leaves the queue leaves it when it is taken, and when it waits. -/
theorem KeepsQueue.engineTake {effect : State → Answer} (keeps : KeepsQueue effect) {st : Station} {bytes : List Byte} {s t : State}
    (taken : Machine.engineTake st bytes effect s = .next t) : t.pending = s.pending := by
  rcases engineTake_cases taken with waits | ⟨w, before, -, rfl⟩
  · exact waits.pending_eq
  · rw [State.placeReply_pending, keeps w, before.pending_eq]

theorem readStatusEffect_keepsQueue : KeepsQueue readStatusEffect := fun _ => rfl

theorem queryChannelEffect_keepsQueue (channel : Byte) : KeepsQueue (queryChannelEffect channel) := by
  intro w
  unfold queryChannelEffect
  split <;> rfl

theorem queryLeaseEffect_keepsQueue (handle : Byte) : KeepsQueue (queryLeaseEffect handle) := by
  intro w
  unfold queryLeaseEffect
  repeat' split
  all_goals rfl

theorem listLeasesEffect_keepsQueue (station : Byte) : KeepsQueue (listLeasesEffect station) := by
  intro w
  unfold listLeasesEffect
  split <;> rfl

theorem attachEffect_keepsQueue (st : Station) : KeepsQueue (attachEffect st) := by
  intro w
  unfold attachEffect
  split <;> rfl

theorem detachEffect_keepsQueue (st : Station) : KeepsQueue (detachEffect st) := by
  intro w
  unfold detachEffect
  split
  · rfl
  · simp

theorem setMaskEffect_keepsQueue (st : Station) (mask : Byte) : KeepsQueue (setMaskEffect st mask) := by
  intro w
  unfold setMaskEffect
  split <;> rfl

theorem pollEffect_keepsQueue (st : Station) : KeepsQueue (pollEffect st) := by
  intro w
  unfold pollEffect
  split
  · rfl
  · simp [State.clearNotices]

theorem configStationEffect_keepsQueue (st : Station) (station cls quota : Byte) :
    KeepsQueue (configStationEffect st station cls quota) := by
  intro w
  unfold configStationEffect
  repeat' split
  all_goals rfl

theorem claimOutcome_keepsQueue (options : Byte) (i : SlotNo) (l : Lease) : KeepsQueue (claimOutcome options i l) := by
  intro w
  unfold claimOutcome
  split
  · simp [claimGranted, State.create]
  · split
    · simp [claimPreempted, State.create]
    · repeat' split
      all_goals rfl

theorem claimEffect_keepsQueue (st : Station) (options : Byte) (term : Word) (warnMargin count : Byte) (channels : List Byte) :
    KeepsQueue (claimEffect st options term warnMargin count channels) := by
  intro w
  unfold claimEffect
  split
  · rfl
  · split
    · rfl
    · exact claimOutcome_keepsQueue options _ _ w

theorem renewEffect_keepsQueue (st : Station) (handle : Byte) (newTerm : Word) : KeepsQueue (renewEffect st handle newTerm) := by
  intro w
  unfold renewEffect
  repeat' split
  all_goals rfl

theorem renewAllEffect_keepsQueue (st : Station) : KeepsQueue (renewAllEffect st) := by
  intro w
  unfold renewAllEffect
  split
  · rfl
  · simp [State.renewAll]

theorem driveEffect_keepsQueue (st : Station) (handle count : Byte) (entries : List DriveEntry) :
    KeepsQueue (driveEffect st handle count entries) := by
  intro w
  unfold driveEffect
  repeat' split
  all_goals try rfl
  dsimp only
  split
  · rfl
  · exact (w.applyDrives_frame _).2.pending_eq

theorem releaseEffect_keepsQueue (st : Station) (handle : Byte) : KeepsQueue (releaseEffect st handle) := by
  intro w
  unfold releaseEffect
  repeat' split
  all_goals simp [State.release]

theorem revokeEffect_keepsQueue (st : Station) (handle : Byte) : KeepsQueue (revokeEffect st handle) := by
  intro w
  unfold revokeEffect
  repeat' split
  all_goals simp

theorem configChannelEffect_keepsQueue (st : Station) (channel config minClass : Byte) :
    KeepsQueue (configChannelEffect st channel config minClass) := by
  intro w
  unfold configChannelEffect
  repeat' split
  all_goals rfl

theorem configClockEffect_keepsQueue (st : Station) (sourceEdge rate silence frame settle : Byte) :
    KeepsQueue (configClockEffect st sourceEdge rate silence frame settle) := by
  intro w
  unfold configClockEffect
  split
  · rfl
  · simp only [accept_state, State.configureClock, State.mapChannels_pending, State.startFrame_pending]
    split
    · exact State.leaveHold_pending _ .clock
    · rfl

theorem configSupplyEffect_keepsQueue (st : Station) (index : Byte) : KeepsQueue (configSupplyEffect st index) := by
  intro w
  unfold configSupplyEffect
  repeat' split
  all_goals rfl

theorem clearFaultEffect_keepsQueue (st : Station) (channel : Byte) : KeepsQueue (clearFaultEffect st channel) := by
  intro w
  unfold clearFaultEffect State.clearFault
  repeat' split
  all_goals simp

theorem restartEffect_keepsQueue (st : Station) : KeepsQueue (restartEffect st) := by
  intro w
  unfold restartEffect
  split
  · rfl
  · simp [State.restart]

/-! ## Every command -/

/-- An event that does not come while a device reset lasts. -/
theorem pending_outsideReset {s t u : State} (kept : u.pending = s.pending)
    (taken : (.next (if s.resetCtl.active then s else u) : Host.Outcome State Fault Refusal) = .next t) : t.pending = s.pending := by
  cases taken
  split
  · rfl
  · exact kept

/-- Settles O4: the requests by their effects, the port commands and the events by the operation each one is. -/
theorem commandsKeepQueue : Obligations.CommandsKeepQueue := by
  unfold Obligations.CommandsKeepQueue
  intro i s t taken
  cases i with
  | readStatus st => exact readStatusEffect_keepsQueue.engineTake taken
  | queryChannel st channel => exact (queryChannelEffect_keepsQueue channel).engineTake taken
  | queryLease st handle => exact (queryLeaseEffect_keepsQueue handle).engineTake taken
  | listLeases st station => exact (listLeasesEffect_keepsQueue station).engineTake taken
  | attach st => exact (attachEffect_keepsQueue st).engineTake taken
  | detach st => exact (detachEffect_keepsQueue st).engineTake taken
  | setMask st mask => exact (setMaskEffect_keepsQueue st mask).engineTake taken
  | poll st => exact (pollEffect_keepsQueue st).engineTake taken
  | claim st options term warnMargin count channels =>
    exact (claimEffect_keepsQueue st options term warnMargin count channels).engineTake taken
  | renew st handle newTerm => exact (renewEffect_keepsQueue st handle newTerm).engineTake taken
  | renewAll st => exact (renewAllEffect_keepsQueue st).engineTake taken
  | drive st handle count entries => exact (driveEffect_keepsQueue st handle count entries).engineTake taken
  | release st handle => exact (releaseEffect_keepsQueue st handle).engineTake taken
  | configChannel st channel config minClass => exact (configChannelEffect_keepsQueue st channel config minClass).engineTake taken
  | configStation st station cls quota => exact (configStationEffect_keepsQueue st station cls quota).engineTake taken
  | configClock st sourceEdge rate silence frame settle =>
    exact (configClockEffect_keepsQueue st sourceEdge rate silence frame settle).engineTake taken
  | configSupply st index => exact (configSupplyEffect_keepsQueue st index).engineTake taken
  | clearFault st channel => exact (clearFaultEffect_keepsQueue st channel).engineTake taken
  | revoke st handle => exact (revokeEffect_keepsQueue st handle).engineTake taken
  | restart st => exact (restartEffect_keepsQueue st).engineTake taken
  | commandByte p _ | dataByte p _ | unknownCommandByte p _ | abort p | replay p => cases taken; exact s.writeCycle_pending p _
  | statusRead p | dataRead p => cases taken; exact s.readCycle_pending p _
  | leaseTick => exact pending_outsideReset s.internalTick_pending taken
  | leaseExpiry => exact pending_outsideReset s.expireDue_pending taken
  | pulseEnd n => exact pending_outsideReset (s.setChannel_pending n _) taken
  | frameStart => exact pending_outsideReset s.startFrame_pending taken
  | senseChange n level =>
    cases taken
    split <;> exact s.setChannel_pending n _
  | settleEnd n => exact pending_outsideReset (s.setChannel_pending n (s.channel n).settleEnds) taken
  | senseFault n => exact pending_outsideReset (s.senseFault_pending n) taken
  | qualifyingEdge edge =>
    cases taken
    repeat' split
    · rfl
    · exact State.takeEdge_pending _
    · rfl
  | silenceExpiry => exact pending_outsideReset s.silenceExpiry_pending taken
  | supplyBelowVt mv | supplyAboveVt mv => cases taken; exact s.supplyTo_pending mv
  | supplyLowEvent => exact pending_outsideReset s.supplyLow_pending taken
  | supplyRise mv =>
    cases taken
    split <;> exact s.supplyTo_pending mv
  | recoveryExpiry => exact pending_outsideReset s.recoveryExpiry_pending taken
  | deviceReset condition | lastResetConditionClears condition =>
    cases condition with
    | supply mv => cases taken; exact s.supplyTo_pending mv
    | pin => cases taken; rfl
  | resetEnd =>
    cases taken
    split <;> rfl

end Sys2Proof.Machine
end

section
/-! PROOFS. The events of the leases and of the drive units that a lease tick does not bring: LEASE_EXPIRY, PULSE_END and FRAME_START. -/

namespace Sys2Proof.Machine

open Sys2Proof

/-- Settles O44: outside a device reset the event is the expiries that a lease tick makes, on the state as it stands. -/
theorem leaseExpiryCompletes : Obligations.LeaseExpiryCompletes := by
  unfold Obligations.LeaseExpiryCompletes
  intro s running
  have taken : exec .leaseExpiry s = .next s.expireDue := by
    simp only [exec, execLeaseExpiry, running, Bool.false_eq_true, if_false]
  exact ⟨s.expireDue, taken, s.expireDue_expiryOf⟩

/-! ## The drive units -/

/-- A pulse with nothing left to run ends at the opposite steady level (R81). -/
theorem HeldUse.endPulse_of_ended {u : HeldUse} {level : Level} {length : Nat} (pulsing : u.drive = .pulse level length)
    (ended : u.pulse = 0) : u.endPulse = { u with drive := .steady (oppositeLevel level) } := by
  rw [HeldUse.endPulse, pulsing, ended]
  cases level <;> rfl

/-- Where no pulse stands at 0 there is none to end (R81, log entry 4). -/
theorem HeldUse.endPulse_of_running {u : HeldUse} (runs : ∀ level length, u.drive = .pulse level length → u.pulse ≠ 0) :
    u.endPulse = u := by
  unfold HeldUse.endPulse
  split
  · next pulsing ended => exact absurd ended (runs _ _ pulsing)
  · next pulsing ended => exact absurd ended (runs _ _ pulsing)
  · rfl

/-- A frame start brings a pending PWM change into force (R79). -/
theorem HeldUse.startFrame_of_pending {u : HeldUse} {duty : Nat} (change : u.pendingPwm = some duty) :
    u.startFrame = { u with drive := .pwm duty, pendingPwm := none } := by
  rw [HeldUse.startFrame, change]

theorem HeldUse.startFrame_of_none {u : HeldUse} (unchanged : u.pendingPwm = none) : u.startFrame = u := by
  rw [HeldUse.startFrame, unchanged]

/-- A HELD channel that goes on driving what it drives is left as it is, its checker too (R83). -/
theorem Channel.nowDriving_self {c : Channel} {u : HeldUse} (held : c.use = .held u) : c.nowDriving u = c := by
  have level : u.drive.checked = c.checkedLevel := by rw [Channel.checkedLevel, held]
  rw [Channel.nowDriving, if_pos level, ← held]

/-- A change that leaves what the channel drives, if it drives, leaves the channel (R83). -/
theorem Channel.redrive_of_fixed {c : Channel} {f : HeldUse → HeldUse} (fixed : ∀ u, c.use = .held u → f u = u) :
    c.redrive f = c := by
  cases use : c.use with
  | held u => rw [Channel.redrive_held use, fixed u use, Channel.nowDriving_self use]
  | idle => exact Channel.redrive_of_not_held (by rw [Channel.isHeld, use]) f
  | faulted => exact Channel.redrive_of_not_held (by rw [Channel.isHeld, use]) f

theorem State.channel_startFrame (s : State) (n : ChannelNo) :
    s.startFrame.channel n = (s.channel n).redrive HeldUse.startFrame := by
  have redriven := s.channel_mapChannels (fun _ c => c.redrive HeldUse.startFrame) n
  rwa [State.channel] at redriven ⊢

/-- A frame start touches the channel table and the frame's time alone (R79). -/
theorem State.startFrame_frame (s : State) :
    s.startFrame.frameTime = 0 ∧ s.startFrame.clock = s.clock ∧ SameLeases s s.startFrame ∧ SameStations s s.startFrame ∧
      SameSupply s s.startFrame ∧ SameResets s s.startFrame ∧ SamePorts s s.startFrame ∧ SameOutside s s.startFrame := by
  simp [State.startFrame, SameLeases, SameStations, SameSupply, SameResets, SamePorts, SameOutside]

/-- Settles O47: each event redrives the HELD channels, PULSE_END the one it names and FRAME_START every one. -/
theorem driveEvents : Obligations.DriveEvents := by
  unfold Obligations.DriveEvents
  intro s running
  have pulseEnd (n : ChannelNo) :
      exec (.pulseEnd n) s = .next (s.setChannel n ((s.channel n).redrive HeldUse.endPulse)) := by
    simp only [exec, execPulseEnd, running, Bool.false_eq_true, if_false]
  have frameStart : exec .frameStart s = .next s.startFrame := by
    simp only [exec, execFrameStart, running, Bool.false_eq_true, if_false]
  refine ⟨fun n u level length held pulsing ended => ?_, fun n runs => ?_, s.startFrame, frameStart,
    fun n u duty held change => ?_, fun n unchanged => ?_, s.startFrame_frame⟩
  · rw [pulseEnd, Channel.redrive_held held, HeldUse.endPulse_of_ended pulsing ended]
  · rw [pulseEnd, Channel.redrive_of_fixed fun u held => HeldUse.endPulse_of_running fun level length => runs u level length held,
      State.setChannel_self]
  · rw [State.channel_startFrame, Channel.redrive_held held, HeldUse.startFrame_of_pending change]
  · rw [State.channel_startFrame, Channel.redrive_of_fixed fun u held => HeldUse.startFrame_of_none (unchanged u held)]

end Sys2Proof.Machine
end
